-- ==== Sys2Proof/Word.lean ====
section
/-! DEFINITION. The vocabulary of the spec: widths, directions, microstep levels, the command
operations, the words that arrive on the block's input ports. -/

namespace Sys2Proof

/-- A byte of the serial line or of the settings record. -/
abbrev Byte := BitVec 8

/-- The value of `POS`, `TGT` and of a command's `data` (R8: 16-bit unsigned). -/
abbrev Word := BitVec 16

/-- `FWD` or `BWD` (R12, R32): forward is the direction in which `POS` increases (R104). -/
inductive Dir
  | fwd
  | bwd
  deriving DecidableEq, Repr, Inhabited

/-- The six microstep levels (R8, R105): 1, 2, 4, 8, 16, 32. No other level exists (R80). -/
inductive Level
  | x1
  | x2
  | x4
  | x8
  | x16
  | x32
  deriving DecidableEq, Repr, Inhabited

/-- The operations of the command table (R74), in the order of its rows. -/
inductive Op
  | stop
  | getPosition
  | setPosition
  | getTarget
  | setTarget
  | go
  | getHalf
  | setFull
  | setHalf
  | getMoving
  | getVersion
  | getBacklight
  | getSdiv
  | setSdiv
  | getTemp
  | holdOn
  | holdOff
  | unrecognized
  deriving DecidableEq, Repr

/-- One clock of the block's input ports (R70): the event vector `ev[4:0]` (R71), the command word
sampled with `ev[1]` (R73) and the reset-load word sampled with `ev[4]` (R87). -/
structure Clock where
  ev : BitVec 5
  cmdWord : BitVec 24
  init : BitVec 26
  deriving DecidableEq, Repr

/-- A word in one of the three formats of the opcode table: a command word (CMD), a clock of the
event ports (EVT), a microstep selector pattern (MSEL). -/
inductive PortWord
  | cmd (w : BitVec 24)
  | evt (c : Clock)
  | msel (p : BitVec 3)
  deriving DecidableEq, Repr

/-- Why a port word is not exactly one instruction. -/
inductive DecodeError
  /-- `ev` = 0: the clock delivers nothing (R71). -/
  | noEvent
  /-- Several events in one clock: legal, and performed one after another (R72), but not one
  instruction. -/
  | coincident
  /-- The patterns `101` and `110`, which are never produced (R80). -/
  | reservedPattern
  deriving DecidableEq, Repr

/-- How many hexadecimal digits a reply has (R76). -/
inductive Digits
  | two
  | four
  deriving DecidableEq, Repr

/-- `reply(n, v)` (R76): the digit count and the value, zero-extended to 16 bits. -/
structure Reply where
  digits : Digits
  value : Word
  deriving DecidableEq, Repr

/-- Which of offsets 1 and 2 of the record holds the low byte of the position (R52). -/
inductive ByteOrder
  | lowFirst
  | highFirst
  deriving DecidableEq, Repr, Inhabited

/-- The two boolean fields of the record (R60). -/
inductive RecordFlag
  | resolution
  | hold
  deriving DecidableEq, Repr

/-- The serial receiver (R203): between frames, inside a frame with the content so far, or dropping
the rest of an over-long message. -/
inductive Rx
  | idle
  | collecting (content : List Byte)
  | discarding
  deriving DecidableEq, Repr, Inhabited

end Sys2Proof
end

