-- ==== Sys2Proof/Config.lean ====
section
/-! DEFINITION. What an implementation fixes (00_scope.md R9) and the values the spec leaves free
(93_implementation_defined.md). Every constant here is opaque and has no body: a claim that holds
holds for every choice of it. -/

namespace Sys2Proof.Config

/-- One less than `DISABLE_DELAY_TICKS`. R9: the parameter is "OPEN, natural number, must be at
least 1"; R16: 0 is refused at configuration time. -/
opaque disableDelayPred : Nat

/-- `DISABLE_DELAY_TICKS` (R9, R122): the value `arm()` loads, any natural number of at least 1. -/
def disableDelayTicks : Nat := disableDelayPred + 1

/-- `COARSE_LEVEL` (R9): the level selected when `FINE` = 0. Any of the six. -/
opaque coarseLevel : Level

/-- `FINE_LEVEL` (R9): the level selected when `FINE` = 1. Any of the six. -/
opaque fineLevel : Level

/-- `EN_ACTIVE_LEVEL` (R9, R36): the electrical level of `en` when `DRVEN` = 1. -/
opaque enActiveLevel : Bool

/-- `DIR_FWD_LEVEL` (R9, R36): the electrical level of `dir` when `DIR` = `FWD`. -/
opaque dirFwdLevel : Bool

/-- The seven bits of `MARKER` (R9, R60: "a fixed ASCII byte", no value given). -/
opaque markerBits : BitVec 7

/-- `MARKER`, the sentinel byte of the record: some ASCII byte, so below 0x80 (DEDUCED, log 11). -/
def marker : Byte := markerBits.setWidth 8

/-- `DEFAULT_FINE` (R9, R208): the resolution flag substituted when the marker mismatches. -/
opaque defaultFine : Bool

/-- `RECORD_POS_ORDER` (R9, R52). -/
opaque recordPosOrder : ByteOrder

/-- The record byte that encodes 0 in a boolean field (R60: not given). -/
opaque flagFalse : RecordFlag → Byte

/-- How far the byte that encodes 1 lies from the one that encodes 0, less 1. -/
opaque flagGap : RecordFlag → Fin 255

/-- The record byte that encodes 1 in a boolean field: any byte but `flagFalse` (R60; the round trip
of R209 needs the two to differ). -/
def flagTrue (f : RecordFlag) : Byte := flagFalse f + BitVec.ofNat 8 ((flagGap f).val + 1)

/-- What a boolean field of the record decodes to when its byte is neither of the two that `save()`
writes (U10: a parameter of the environment). -/
opaque flagOther : RecordFlag → Byte → Bool

/-- `DISCONNECT_TIMEOUT` (R9, R207), in units of the environment's time source. -/
opaque disconnectTimeout : Nat

/-- Whether a command rejected while moving refreshes `LastCommandTimestamp` (U5). -/
opaque refreshOnRejected : Bool

/-- Whether a message that delivers no command refreshes `LastCommandTimestamp` (U5). -/
opaque refreshOnUnrecognized : Bool

/-- Which of the ten operations whose serial code no source gives (R82) two code characters name, if
any: 0 is the first of them in the table's order. Asked only after the seven known codes. -/
opaque otherCode : Byte → Byte → Option (Fin 10)

/-- U1, U2, U3: the `data` delivered for a message with a known code whose payload is not exactly
what its command expects, or nothing delivered. The first argument is a fresh number. -/
opaque openPayload : Nat → List Byte → Option Word

/-- U4: what the receiver does with a byte outside a frame or a second start byte inside one: the
receiver's next state, and a message it dispatches, if any. The first argument is a fresh number. -/
opaque strayByte : Nat → Rx → Byte → Rx × Option (List Byte)

/-- U4: whether an over-long message is dropped up to its terminator, or only up to the byte that
overflowed the buffer. The first argument is a fresh number. -/
opaque overflowSkipsToEnd : Nat → List Byte → Bool

/-- R32, U6: the value of `DIR` after a `RESET`. The argument is a fresh number. -/
opaque freeDir : Nat → Dir

end Sys2Proof.Config
end

