-- ==== Sys2Proof/Machine/Memory.lean ====
section
/-! DEFINITION. The byte-addressed space of the settings store (R51): the block itself has no memory
(R50). A list of (offset, byte) pairs in one canonical form. -/

namespace Sys2Proof.Machine

/-- The record space, by rising offset, listing no byte that is what an unlisted offset reads as. -/
abbrev Memory := List Host.Cell

/-- What an offset that nothing has written reads as: an erased byte (log 11, DESIGN CHOICE). -/
def Memory.blank : Byte := 0xFF

/-- `MemRead(off, 1)` (R12). -/
def Memory.read (m : Memory) (a : Nat) : Byte :=
  match m with
  | [] => Memory.blank
  | (k, b) :: rest => if k = a then b else Memory.read rest a

/-- A list with the entry of offset `a` taken out. -/
def Memory.erase (m : Memory) (a : Nat) : Memory :=
  match m with
  | [] => []
  | (k, b) :: rest => if k = a then rest else (k, b) :: Memory.erase rest a

/-- A list with offset `a` holding `b`, in its place by rising offset. -/
def Memory.insert (m : Memory) (a : Nat) (b : Byte) : Memory :=
  match m with
  | [] => [(a, b)]
  | (k, c) :: rest =>
    if a < k then (a, b) :: (k, c) :: rest
    else if a = k then (a, b) :: rest
    else (k, c) :: Memory.insert rest a b

/-- `MemWrite(off, 1, v)` (R12). -/
def Memory.write (m : Memory) (a : Nat) (b : Byte) : Memory :=
  if b = Memory.blank then Memory.erase m a else Memory.insert m a b

/-- The offsets of a list lie above `lo` and rise. -/
def Memory.risesFrom (lo : Nat) (m : Memory) : Bool :=
  match m with
  | [] => true
  | (k, _) :: rest => decide (lo ≤ k) && Memory.risesFrom (k + 1) rest

/-- The canonical form: offsets rise, none lies outside the record's 0 to 5 (R51), and no entry holds
what an unlisted offset reads as. -/
def Memory.wf (m : Memory) : Bool :=
  Memory.risesFrom 0 m && m.all (fun c => decide (c.1 < 6) && decide (c.2 ≠ Memory.blank))

end Sys2Proof.Machine
end

