-- ==== Sys2Proof/Machine/Record.lean ====
section
/-! DEFINITION. The persisted subset as a 26-bit word (R87) and as six bytes of storage (R60), and
`load()` and `save()` on storage (R208, R209). -/

namespace Sys2Proof.Machine

/-- The layout of `init` and `snap` (R87): `hold` bit 25, `fine` bit 24, `sdiv` 23:16, `pos` 15:0. -/
def packPersisted (hold fine : Bool) (sdiv : Byte) (pos : Word) : BitVec 26 :=
  BitVec.ofBool hold ++ BitVec.ofBool fine ++ sdiv ++ pos

/-- The field `pos` (R87). -/
def persistedPos (w : BitVec 26) : Word := w.extractLsb' 0 16

/-- The field `sdiv` (R87). -/
def persistedSdiv (w : BitVec 26) : Byte := w.extractLsb' 16 8

/-- The field `fine` (R87). -/
def persistedFine (w : BitVec 26) : Bool := w.getLsbD 24

/-- The field `hold` (R87). -/
def persistedHold (w : BitVec 26) : Bool := w.getLsbD 25

/-- The byte of a boolean field of the record. -/
def flagByte (f : RecordFlag) (b : Bool) : Byte :=
  if b then Config.flagTrue f else Config.flagFalse f

/-- What a boolean field of the record decodes to (R209's round trip; U10 for any other byte). -/
def flagOfByte (f : RecordFlag) (x : Byte) : Bool :=
  if x = Config.flagTrue f then true
  else if x = Config.flagFalse f then false
  else Config.flagOther f x

/-- The byte of the position field at offset 1 (R52, R60). -/
def posByte1 (p : Word) : Byte :=
  match Config.recordPosOrder with
  | .lowFirst => p.extractLsb' 0 8
  | .highFirst => p.extractLsb' 8 8

/-- The byte of the position field at offset 2 (R52, R60). -/
def posByte2 (p : Word) : Byte :=
  match Config.recordPosOrder with
  | .lowFirst => p.extractLsb' 8 8
  | .highFirst => p.extractLsb' 0 8

/-- The position that the bytes at offsets 1 and 2 stand for. -/
def posOfBytes (b1 b2 : Byte) : Word :=
  match Config.recordPosOrder with
  | .lowFirst => b2 ++ b1
  | .highFirst => b1 ++ b2

/-- The six bytes of the record that `save()` computes from a snapshot (R60, R209). -/
def recordCells (w : BitVec 26) : List Host.Cell :=
  [ (0, Config.marker)
  , (1, posByte1 (persistedPos w))
  , (2, posByte2 (persistedPos w))
  , (3, flagByte .resolution (persistedFine w))
  , (4, persistedSdiv w)
  , (5, flagByte .hold (persistedHold w)) ]

/-- `save()`'s loop over bytes of the record (R209, R62): a byte equal to the stored one is not
written. Answers the storage after, and the writes made, in order. -/
def saveCells (cells : List Host.Cell) (m : Memory) : Memory × List Host.Cell :=
  match cells with
  | [] => (m, [])
  | (a, b) :: rest =>
    if Memory.read m a = b then saveCells rest m
    else ((saveCells rest (Memory.write m a b)).1, (a, b) :: (saveCells rest (Memory.write m a b)).2)

/-- Every byte written, whatever is stored: how `load()` puts the sentinel and the defaults (R208). -/
def writeCells (cells : List Host.Cell) (m : Memory) : Memory :=
  match cells with
  | [] => m
  | (a, b) :: rest => writeCells rest (Memory.write m a b)

/-- The values adopted when the marker mismatches (R208): position 0, `DEFAULT_FINE`, divisor 2, hold
policy false. -/
def defaultInit : BitVec 26 := packPersisted false Config.defaultFine 2#8 0#16

/-- The fields of the record in storage (R208, first branch): adopted as they are, unvalidated. -/
def recordFields (m : Memory) : BitVec 26 :=
  packPersisted (flagOfByte .hold (Memory.read m 5)) (flagOfByte .resolution (Memory.read m 3))
    (Memory.read m 4) (posOfBytes (Memory.read m 1) (Memory.read m 2))

/-- What `load()` hands to `RESET` (R208). -/
def loadInit (m : Memory) : BitVec 26 :=
  if Memory.read m 0 = Config.marker then recordFields m else defaultInit

/-- The bytes `load()` writes, in order (R208): none when the marker matches. -/
def loadWrites (m : Memory) : List Host.Cell :=
  if Memory.read m 0 = Config.marker then [] else recordCells defaultInit

/-- Storage after `load()` (R208). -/
def loadMemory (m : Memory) : Memory := writeCells (loadWrites m) m

end Sys2Proof.Machine
end

