-- ==== Sys2Proof/Syntax.lean ====
section
/-! DEFINITION. The operations of spec/opcode_table.json, one constructor per mnemonic. A command
keeps all 16 bits of its `data` field, also where R73 says the operation ignores them. -/

namespace Sys2Proof

/-- The instructions: the commands of R74, the events of R71, the encoder evaluations of R105. -/
inductive Instr
  /-- `STOP`, `op` 0x00 (R141). -/
  | stop (data : Word)
  /-- `GET_POSITION`, `op` 0x01 (R181). -/
  | getPosition (data : Word)
  /-- `SET_POSITION v`, `op` 0x02 (R142). -/
  | setPosition (data : Word)
  /-- `GET_TARGET`, `op` 0x03 (R182). -/
  | getTarget (data : Word)
  /-- `SET_TARGET v`, `op` 0x04 (R143). -/
  | setTarget (data : Word)
  /-- `GO`, `op` 0x05 (R144). -/
  | go (data : Word)
  /-- `GET_HALF`, `op` 0x06 (R183). -/
  | getHalf (data : Word)
  /-- `SET_FULL`, `op` 0x07 (R160). -/
  | setFull (data : Word)
  /-- `SET_HALF`, `op` 0x08 (R161). -/
  | setHalf (data : Word)
  /-- `GET_MOVING`, `op` 0x09 (R184). -/
  | getMoving (data : Word)
  /-- `GET_VERSION`, `op` 0x0A (R185). -/
  | getVersion (data : Word)
  /-- `GET_BACKLIGHT`, `op` 0x0B (R186). -/
  | getBacklight (data : Word)
  /-- `GET_SDIV`, `op` 0x0C (R187). -/
  | getSdiv (data : Word)
  /-- `SET_SDIV v`, `op` 0x0D (R162). -/
  | setSdiv (data : Word)
  /-- `GET_TEMP`, `op` 0x0E (R188). -/
  | getTemp (data : Word)
  /-- `HOLD_ON`, `op` 0x0F (R163). -/
  | holdOn (data : Word)
  /-- `HOLD_OFF`, `op` 0x10 (R164). -/
  | holdOff (data : Word)
  /-- `UNRECOGNIZED`, `op` 0x11 to 0xFF (R189): the table's seven rows of this mnemonic. -/
  | unrecognized (op : Byte) (data : Word)
  /-- `TICK`, `ev[0]` (R120). -/
  | tick
  /-- `CMD`, `ev[1]`, with its command word (R71, R73). -/
  | cmd (word : BitVec 24)
  /-- `PERSIST_TAKE`, `ev[2]` (R200). -/
  | persistTake
  /-- `FORCE_DISABLE`, `ev[3]` (R201). -/
  | forceDisable
  /-- `RESET`, `ev[4]`, with its reset-load word (R260, R87). -/
  | reset (init : BitVec 26)
  /-- `MSENC(1)` (R105). -/
  | msenc1
  /-- `MSENC(2)` (R105). -/
  | msenc2
  /-- `MSENC(4)` (R105). -/
  | msenc4
  /-- `MSENC(8)` (R105). -/
  | msenc8
  /-- `MSENC(16)` (R105). -/
  | msenc16
  /-- `MSENC(32)` (R105). -/
  | msenc32
  deriving DecidableEq, Repr

end Sys2Proof
end

