-- ==== Sys2Proof/Machine/State.lean ====
section
/-! DEFINITION. The state of the block (R20), of its environment (R33, 45_host_services.md), and what
the last step put on the output ports; the reasons a step could stop; the state after reset. -/

namespace Sys2Proof.Machine

/-- What a step puts on the output ports that are pulses or strobes (R13, R70), and the traffic of the
environment's devices. -/
structure Output where
  /-- The step pulses, in order, each with its direction (R13: at most one, from a `TICK`). -/
  steps : List Dir
  /-- The reply port (R76): `rsp_valid` is 1 exactly when a reply is there. -/
  reply : Option Reply
  /-- The `snap` port (R70, R87). -/
  snap : Option (BitVec 26)
  /-- The result of an encoder evaluation `MSENC(level)` (R105). The model's own (log 6). -/
  pattern : Option (BitVec 3)
  /-- The characters the dispatcher transmits (R77, R205). -/
  tx : List Byte
  /-- The bytes written to storage, in order (R208, R209). -/
  nvWrites : List Host.Cell
  deriving DecidableEq, Repr

/-- No pulse, no reply, no snapshot: `step` low and `rsp_valid` = 0. -/
def Output.idle : Output :=
  { steps := [], reply := none, snap := none, pattern := none, tx := [], nvWrites := [] }

/-- What the outside world does next. -/
inductive Input
  /-- One clock of the block's input ports (R70, R71). -/
  | clock (c : Clock)
  /-- A call of the adapter's contract entry `setResolution(level)` (R100, R105; log 6). -/
  | setResolution (l : Level)
  /-- The serial transport delivers a byte (R203). -/
  | serialByte (b : Byte)
  /-- The main loop looks at `persist_req` (R210, R211). -/
  | service
  /-- A `save()` in progress runs to its end (R209). -/
  | save
  /-- The main loop runs the disconnect check (R207). -/
  | checkDisconnect
  /-- The environment's monotonic time source advances (R207). -/
  | elapse (d : Nat)
  /-- Start-up: `load()`, then `RESET` (R208, R262). -/
  | powerUp
  /-- Power is lost, and comes back: of a `save()` in progress the bytes at the offsets that `written`
  selects were written (U11), then start-up. -/
  | powerLoss (written : BitVec 6)
  deriving DecidableEq, Repr

/-- The machine: the block's twelve registers, the environment, and the model's own fields. -/
structure State where
  /-- `POS` (R21). -/
  pos : Word
  /-- `TGT` (R22). -/
  tgt : Word
  /-- `MOVING` (R23): the sequencer's state, `Idle` or `Moving` (R42). -/
  moving : Bool
  /-- `FINE` (R24). -/
  fine : Bool
  /-- `SDIV` (R25). -/
  sdiv : Byte
  /-- `HOLD` (R26). -/
  hold : Bool
  /-- `DRVEN` (R27). -/
  drven : Bool
  /-- `PREQ` (R28). -/
  preq : Bool
  /-- `DIVCNT` (R29). -/
  divcnt : Byte
  /-- `DISREQ` (R30). -/
  disreq : Bool
  /-- `DISCNT` (R31). -/
  discnt : Nat
  /-- `DIR` (R32). -/
  dir : Dir
  /-- What the last step put on the output ports. The model's own (log 7). -/
  out : Output
  /-- How many free values have been drawn. The model's own (log 23). -/
  draws : Nat
  /-- The settings record in storage (R51, R60; environment). -/
  nv : Memory
  /-- The snapshot that a `save()` in progress is writing (R209, R210; environment, log 17). -/
  saving : Option (BitVec 26)
  /-- The serial receive buffer (R33, R203; environment). -/
  rx : Rx
  /-- `LastCommandTimestamp` (R33, R207; environment). -/
  lastCommand : Nat
  /-- The monotonic time source (R207; environment). -/
  now : Nat
  /-- What the outside world does next, oldest first. The model's own (log 4). -/
  inputs : List Input
  deriving DecidableEq, Repr

/-- Why a step could stop with a fault: nothing. R16: "The block has no fault, no trap and no stuck
state: every event has a next state from every state." -/
inductive Fault
  deriving DecidableEq, Repr

/-- Why a step could be refused. -/
inductive Refusal
  /-- An instruction with no meaning yet, by its mnemonic: raised by an arm of `exec` only, and by none
  of them now. Safe. -/
  | notModelled (mnemonic : String)
  deriving DecidableEq, Repr

/-- The machine right after reset: `RESET` (R37) with the `init` that `load()` adopts on storage that
was never initialised (R37's last sentence, R208), and storage as that `load()` leaves it. The value
of `DIR` is a DESIGN CHOICE (log 1). -/
def State.reset : State :=
  { pos := 0#16
    tgt := 0#16
    moving := false
    fine := Config.defaultFine
    sdiv := 2#8
    hold := false
    drven := false
    preq := false
    divcnt := 0#8
    disreq := false
    discnt := 0
    dir := .fwd
    out := Output.idle
    draws := 0
    nv := loadMemory []
    saving := none
    rx := .idle
    lastCommand := 0
    now := 0
    inputs := [] }

end Sys2Proof.Machine
end

