-- ==== Sys2Proof/Machine/Flags.lean ====
section
/-! DEFINITION. The conditions the rules test. No register records an arithmetic outcome (R130); every
comparison is on unsigned values. -/

namespace Sys2Proof.Machine

/-- `Idle`: `MOVING` = 0 (R42). -/
def idle (s : State) : Bool := !s.moving

/-- Tick step 1 runs the countdown: `MOVING` = 0 and `DISREQ` = 1 (R121). -/
def countingDown (s : State) : Bool := !s.moving && s.disreq

/-- Tick step 2's comparison on the incremented counter (R123): below `SDIV`, the tick does not act. -/
def belowDivisor (s : State) : Bool := decide (s.divcnt < s.sdiv)

/-- A `TICK` in this state is an acting tick (R120, R123): `DIVCNT + 1`, in 8 bits, is not below
`SDIV`. -/
def acts (s : State) : Bool := !decide (s.divcnt + 1#8 < s.sdiv)

/-- Tick step 5's first condition (R126), its bound test kept (R128). -/
def mustStepForward (s : State) : Bool := decide (s.pos < s.tgt) && decide (s.pos < 65535#16)

/-- Tick step 5's second condition (R126), its bound test kept (R128). -/
def mustStepBackward (s : State) : Bool := decide (s.tgt < s.pos) && decide (0#16 < s.pos)

/-- `POS` = `TGT` (R125, R127). -/
def atTarget (s : State) : Bool := decide (s.pos = s.tgt)

/-- A quiescent state (R15): `MOVING` = 0 and `DISREQ` = 0. -/
def quiescent (s : State) : Bool := !s.moving && !s.disreq

end Sys2Proof.Machine
end

