-- ==== Sys2Proof/WellFormed.lean ====
section
/-! DEFINITION. Which terms of `Instr` stand for an operation of the spec. -/

namespace Sys2Proof

/-- Every field of every instruction takes all values of its width, but for one: an `UNRECOGNIZED`
command has an `op` that no row of R74 carries, 0x11 to 0xFF (R78). -/
def Instr.wf : Instr → Bool
  | .unrecognized op _ => decide (0x11#8 ≤ op)
  | .stop _ => true
  | .getPosition _ => true
  | .setPosition _ => true
  | .getTarget _ => true
  | .setTarget _ => true
  | .go _ => true
  | .getHalf _ => true
  | .setFull _ => true
  | .setHalf _ => true
  | .getMoving _ => true
  | .getVersion _ => true
  | .getBacklight _ => true
  | .getSdiv _ => true
  | .setSdiv _ => true
  | .getTemp _ => true
  | .holdOn _ => true
  | .holdOff _ => true
  | .tick => true
  | .cmd _ => true
  | .persistTake => true
  | .forceDisable => true
  | .reset _ => true
  | .msenc1 => true
  | .msenc2 => true
  | .msenc4 => true
  | .msenc8 => true
  | .msenc16 => true
  | .msenc32 => true

end Sys2Proof
end

