-- ==== Sys2Proof/Decode.lean ====
section
/-! DEFINITION. From the words on the block's input ports to instructions, and back. The block has
no instruction bytes and no program counter (R40, R59): what is decoded is a port word, whole. -/

namespace Sys2Proof

/-- `cmd_word[23:16]`, the operation code (R73). -/
def opField (w : BitVec 24) : Byte := w.extractLsb' 16 8

/-- `cmd_word[15:0]`, the payload (R73). -/
def dataField (w : BitVec 24) : Word := w.extractLsb' 0 16

/-- The command word with the two fields `op` and `data` (R73). -/
def commandWord (op : Byte) (data : Word) : BitVec 24 := op ++ data

/-- The row of the command table that an operation code selects (R74); every code from 0x11 on is
`UNRECOGNIZED` (R78). -/
def opOf (op : Byte) : Op :=
  match op.toNat with
  | 0x00 => .stop
  | 0x01 => .getPosition
  | 0x02 => .setPosition
  | 0x03 => .getTarget
  | 0x04 => .setTarget
  | 0x05 => .go
  | 0x06 => .getHalf
  | 0x07 => .setFull
  | 0x08 => .setHalf
  | 0x09 => .getMoving
  | 0x0A => .getVersion
  | 0x0B => .getBacklight
  | 0x0C => .getSdiv
  | 0x0D => .setSdiv
  | 0x0E => .getTemp
  | 0x0F => .holdOn
  | 0x10 => .holdOff
  | _ => .unrecognized

/-- The instruction a command word is (R73, R74). Every word is one. -/
def decodeCommand (w : BitVec 24) : Instr :=
  match opOf (opField w) with
  | .stop => .stop (dataField w)
  | .getPosition => .getPosition (dataField w)
  | .setPosition => .setPosition (dataField w)
  | .getTarget => .getTarget (dataField w)
  | .setTarget => .setTarget (dataField w)
  | .go => .go (dataField w)
  | .getHalf => .getHalf (dataField w)
  | .setFull => .setFull (dataField w)
  | .setHalf => .setHalf (dataField w)
  | .getMoving => .getMoving (dataField w)
  | .getVersion => .getVersion (dataField w)
  | .getBacklight => .getBacklight (dataField w)
  | .getSdiv => .getSdiv (dataField w)
  | .setSdiv => .setSdiv (dataField w)
  | .getTemp => .getTemp (dataField w)
  | .holdOn => .holdOn (dataField w)
  | .holdOff => .holdOff (dataField w)
  | .unrecognized => .unrecognized (opField w) (dataField w)

/-- The events one clock delivers, in the order they are performed (R71, R72): `RESET` alone if it is
there, else `PERSIST_TAKE`, `TICK`, `CMD`, `FORCE_DISABLE`. -/
def decodeClock (c : Clock) : List Instr :=
  if c.ev.getLsbD 4 then [.reset c.init]
  else (if c.ev.getLsbD 2 then [.persistTake] else []) ++ (if c.ev.getLsbD 0 then [.tick] else [])
    ++ (if c.ev.getLsbD 1 then [.cmd c.cmdWord] else [])
    ++ (if c.ev.getLsbD 3 then [.forceDisable] else [])

/-- The level whose selector pattern a 3-bit value is (R79); `101` and `110` are none's (R80). -/
def levelOfPattern (p : BitVec 3) : Option Level :=
  match p.toNat with
  | 0 => some .x1
  | 1 => some .x2
  | 2 => some .x4
  | 3 => some .x8
  | 4 => some .x16
  | 7 => some .x32
  | _ => none

/-- The instruction that evaluates the pattern encoder at a level (R105). -/
def msencInstr : Level → Instr
  | .x1 => .msenc1
  | .x2 => .msenc2
  | .x4 => .msenc4
  | .x8 => .msenc8
  | .x16 => .msenc16
  | .x32 => .msenc32

/-- The one instruction a port word is, or why it is not exactly one. -/
def decode : PortWord → Except DecodeError Instr
  | .cmd w => .ok (decodeCommand w)
  | .evt c =>
    match decodeClock c with
    | [] => .error .noEvent
    | [i] => .ok i
    | _ :: _ :: _ => .error .coincident
  | .msel p =>
    match levelOfPattern p with
    | some l => .ok (msencInstr l)
    | none => .error .reservedPattern

/-- The port word of an instruction, from the encodings of R71, R73, R74, R79 and R87. Ports that an
event does not sample carry 0. -/
def encode : Instr → PortWord
  | .stop d => .cmd (commandWord 0x00 d)
  | .getPosition d => .cmd (commandWord 0x01 d)
  | .setPosition d => .cmd (commandWord 0x02 d)
  | .getTarget d => .cmd (commandWord 0x03 d)
  | .setTarget d => .cmd (commandWord 0x04 d)
  | .go d => .cmd (commandWord 0x05 d)
  | .getHalf d => .cmd (commandWord 0x06 d)
  | .setFull d => .cmd (commandWord 0x07 d)
  | .setHalf d => .cmd (commandWord 0x08 d)
  | .getMoving d => .cmd (commandWord 0x09 d)
  | .getVersion d => .cmd (commandWord 0x0A d)
  | .getBacklight d => .cmd (commandWord 0x0B d)
  | .getSdiv d => .cmd (commandWord 0x0C d)
  | .setSdiv d => .cmd (commandWord 0x0D d)
  | .getTemp d => .cmd (commandWord 0x0E d)
  | .holdOn d => .cmd (commandWord 0x0F d)
  | .holdOff d => .cmd (commandWord 0x10 d)
  | .unrecognized op d => .cmd (commandWord op d)
  | .tick => .evt ⟨0b00001, 0, 0⟩
  | .cmd w => .evt ⟨0b00010, w, 0⟩
  | .persistTake => .evt ⟨0b00100, 0, 0⟩
  | .forceDisable => .evt ⟨0b01000, 0, 0⟩
  | .reset init => .evt ⟨0b10000, 0, init⟩
  | .msenc1 => .msel 0b000
  | .msenc2 => .msel 0b001
  | .msenc4 => .msel 0b010
  | .msenc8 => .msel 0b011
  | .msenc16 => .msel 0b100
  | .msenc32 => .msel 0b111

/-- The bits of a port word that its format's rows of the opcode table match on, as a number:
`cmd_word`, `ev` or the pattern. -/
def PortWord.bits : PortWord → Nat
  | .cmd w => w.toNat
  | .evt c => c.ev.toNat
  | .msel p => p.toNat

/-- The width the opcode table gives a port word's format. -/
def PortWord.width : PortWord → Nat
  | .cmd _ => 24
  | .evt _ => 5
  | .msel _ => 3

/-- A row of spec/opcode_table.json: a word of the row's width is the row's when `word & mask` is
`match`. -/
structure TableRow where
  mnemonic : String
  width : Nat
  bits : Nat
  mask : Nat
  deriving DecidableEq, Repr

/-- The seventeen named rows of the command table (R74). -/
def commandRows : List TableRow :=
  [ ⟨"STOP", 24, 0x0, 0xFF0000⟩
  , ⟨"GET_POSITION", 24, 0x10000, 0xFF0000⟩
  , ⟨"SET_POSITION", 24, 0x20000, 0xFF0000⟩
  , ⟨"GET_TARGET", 24, 0x30000, 0xFF0000⟩
  , ⟨"SET_TARGET", 24, 0x40000, 0xFF0000⟩
  , ⟨"GO", 24, 0x50000, 0xFF0000⟩
  , ⟨"GET_HALF", 24, 0x60000, 0xFF0000⟩
  , ⟨"SET_FULL", 24, 0x70000, 0xFF0000⟩
  , ⟨"SET_HALF", 24, 0x80000, 0xFF0000⟩
  , ⟨"GET_MOVING", 24, 0x90000, 0xFF0000⟩
  , ⟨"GET_VERSION", 24, 0xA0000, 0xFF0000⟩
  , ⟨"GET_BACKLIGHT", 24, 0xB0000, 0xFF0000⟩
  , ⟨"GET_SDIV", 24, 0xC0000, 0xFF0000⟩
  , ⟨"SET_SDIV", 24, 0xD0000, 0xFF0000⟩
  , ⟨"GET_TEMP", 24, 0xE0000, 0xFF0000⟩
  , ⟨"HOLD_ON", 24, 0xF0000, 0xFF0000⟩
  , ⟨"HOLD_OFF", 24, 0x100000, 0xFF0000⟩ ]

/-- The seven match-and-mask rows of `UNRECOGNIZED` (R74, R78). -/
def unrecognizedRows : List TableRow :=
  [ ⟨"UNRECOGNIZED", 24, 0x110000, 0xFF0000⟩
  , ⟨"UNRECOGNIZED", 24, 0x120000, 0xFE0000⟩
  , ⟨"UNRECOGNIZED", 24, 0x140000, 0xFC0000⟩
  , ⟨"UNRECOGNIZED", 24, 0x180000, 0xF80000⟩
  , ⟨"UNRECOGNIZED", 24, 0x200000, 0xE00000⟩
  , ⟨"UNRECOGNIZED", 24, 0x400000, 0xC00000⟩
  , ⟨"UNRECOGNIZED", 24, 0x800000, 0x800000⟩ ]

/-- The five strobes (R71). -/
def eventRows : List TableRow :=
  [ ⟨"TICK", 5, 0x1, 0x1⟩
  , ⟨"CMD", 5, 0x2, 0x2⟩
  , ⟨"PERSIST_TAKE", 5, 0x4, 0x4⟩
  , ⟨"FORCE_DISABLE", 5, 0x8, 0x8⟩
  , ⟨"RESET", 5, 0x10, 0x10⟩ ]

/-- The six selector patterns (R79, R105). -/
def selectorRows : List TableRow :=
  [ ⟨"MSENC_1", 3, 0x0, 0x7⟩
  , ⟨"MSENC_2", 3, 0x1, 0x7⟩
  , ⟨"MSENC_4", 3, 0x2, 0x7⟩
  , ⟨"MSENC_8", 3, 0x3, 0x7⟩
  , ⟨"MSENC_16", 3, 0x4, 0x7⟩
  , ⟨"MSENC_32", 3, 0x7, 0x7⟩ ]

/-- spec/opcode_table.json, row by row. -/
def opcodeTable : List TableRow := commandRows ++ unrecognizedRows ++ eventRows ++ selectorRows

/-- The mnemonic of an instruction, as the opcode table spells it. -/
def Instr.mnemonic : Instr → String
  | .stop _ => "STOP"
  | .getPosition _ => "GET_POSITION"
  | .setPosition _ => "SET_POSITION"
  | .getTarget _ => "GET_TARGET"
  | .setTarget _ => "SET_TARGET"
  | .go _ => "GO"
  | .getHalf _ => "GET_HALF"
  | .setFull _ => "SET_FULL"
  | .setHalf _ => "SET_HALF"
  | .getMoving _ => "GET_MOVING"
  | .getVersion _ => "GET_VERSION"
  | .getBacklight _ => "GET_BACKLIGHT"
  | .getSdiv _ => "GET_SDIV"
  | .setSdiv _ => "SET_SDIV"
  | .getTemp _ => "GET_TEMP"
  | .holdOn _ => "HOLD_ON"
  | .holdOff _ => "HOLD_OFF"
  | .unrecognized _ _ => "UNRECOGNIZED"
  | .tick => "TICK"
  | .cmd _ => "CMD"
  | .persistTake => "PERSIST_TAKE"
  | .forceDisable => "FORCE_DISABLE"
  | .reset _ => "RESET"
  | .msenc1 => "MSENC_1"
  | .msenc2 => "MSENC_2"
  | .msenc4 => "MSENC_4"
  | .msenc8 => "MSENC_8"
  | .msenc16 => "MSENC_16"
  | .msenc32 => "MSENC_32"

/-- The port word that `nbits` bits of the opcode table's numbering stand for (log 5). A command row
has 24 bits. The EVT and MSEL rows share the one-byte words without a mark that tells them apart:
a value that is one event is read as EVT, the only one of the two that is an input encoding, and
otherwise a value that is a selector pattern as MSEL. -/
def portWordOfTable (nbits w : Nat) : Option PortWord :=
  if nbits = 24 then
    if w < 2 ^ 24 then some (.cmd (BitVec.ofNat 24 w)) else none
  else if nbits = 3 then
    if w < 2 ^ 3 then some (.msel (BitVec.ofNat 3 w)) else none
  else if nbits = 5 ∨ nbits = 8 then
    if w = 1 ∨ w = 2 ∨ w = 4 ∨ w = 8 ∨ w = 16 then some (.evt ⟨BitVec.ofNat 5 w, 0, 0⟩)
    else if nbits = 8 ∧ w < 2 ^ 3 then some (.msel (BitVec.ofNat 3 w))
    else none
  else none

/-- The instruction the decoder reads from a word of the opcode table's numbering, operand words
(`cmd_word` of a `CMD`, `init` of a `RESET`) being zeros. -/
def decodeTableWord (nbits w : Nat) : Option Instr :=
  match portWordOfTable nbits w with
  | none => none
  | some p =>
    match decode p with
    | .ok i => some i
    | .error _ => none

end Sys2Proof
end

