-- ==== Sys2Proof/Machine/Operands.lean ====
section
/-! DEFINITION. The operand forms: what a command takes from `data` (R75), and the microstep levels
(R79, R80, R106). -/

namespace Sys2Proof.Machine

/-- The operand of `SET_POSITION` and `SET_TARGET`: `data[15:0]` (R75, R142, R143). -/
def posOperand (data : Word) : Word := data

/-- The operand of `SET_SDIV`: `data[7:0]`, `data[15:8]` ignored (R75, R162). -/
def sdivOperand (data : Word) : Byte := data.extractLsb' 0 8

/-- The multiplier a level stands for (R8). -/
def multiplier : Level → Nat
  | .x1 => 1
  | .x2 => 2
  | .x4 => 4
  | .x8 => 8
  | .x16 => 16
  | .x32 => 32

/-- The level of a multiplier; a number outside the six has none (R80: refused as a configuration). -/
def levelOfMultiplier (n : Nat) : Option Level :=
  match n with
  | 1 => some .x1
  | 2 => some .x2
  | 4 => some .x4
  | 8 => some .x8
  | 16 => some .x16
  | 32 => some .x32
  | _ => none

/-- `MSENC(level)`, the pattern encoder (R105): the leftmost character of a pattern is bit 2 (R79). -/
def msenc : Level → BitVec 3
  | .x1 => 0b000
  | .x2 => 0b001
  | .x4 => 0b010
  | .x8 => 0b011
  | .x16 => 0b100
  | .x32 => 0b111

/-- `level(FINE)` (R106). -/
def levelOf (fine : Bool) : Level :=
  if fine then Config.fineLevel else Config.coarseLevel

/-- Whether an operation has the precondition "not moving" (R74, R232). -/
def needsIdle : Op → Bool
  | .setPosition => true
  | .setTarget => true
  | .setFull => true
  | .setHalf => true
  | .setSdiv => true
  | .stop => false
  | .getPosition => false
  | .getTarget => false
  | .go => false
  | .getHalf => false
  | .getMoving => false
  | .getVersion => false
  | .getBacklight => false
  | .getSdiv => false
  | .getTemp => false
  | .holdOn => false
  | .holdOff => false
  | .unrecognized => false

/-- How many hexadecimal characters of payload an operation expects (R75). -/
def payloadDigits : Op → Nat
  | .setPosition => 4
  | .setTarget => 4
  | .setSdiv => 2
  | .stop => 0
  | .getPosition => 0
  | .getTarget => 0
  | .go => 0
  | .getHalf => 0
  | .setFull => 0
  | .setHalf => 0
  | .getMoving => 0
  | .getVersion => 0
  | .getBacklight => 0
  | .getSdiv => 0
  | .getTemp => 0
  | .holdOn => 0
  | .holdOff => 0
  | .unrecognized => 0

end Sys2Proof.Machine
end

