-- ==== Sys2Proof/Machine/Ops.lean ====
section
/-! DEFINITION. The named operations of the spec's pseudocode (R12) over the state, and what every
event shares. There is no exception to take and none to return from (R230, R238, R239): the one thing
the spec puts in their place is the silent rejection of R140. -/

namespace Sys2Proof.Machine

/-- The start of an event: no pulse, no reply, no snapshot yet (R13, R76). -/
def State.begin (s : State) : State := { s with out := Output.idle }

/-- One computation, then another on the state it leaves. -/
def andThen (o : Host.Outcome State Fault Refusal) (f : State → Host.Outcome State Fault Refusal) :
    Host.Outcome State Fault Refusal :=
  match o with
  | .next s => f s
  | .fault r => .fault r
  | .refused r => .refused r

/-- `arm()` (R122): the delayed disable is requested and its countdown starts from the full value,
also when one is pending. -/
def arm (s : State) : State :=
  { s with disreq := true, discnt := Config.disableDelayTicks }

/-- `drv_enable()` (R101). -/
def drvEnable (s : State) : State := { s with drven := true }

/-- `drv_disable()` (R102). -/
def drvDisable (s : State) : State := { s with drven := false }

/-- `emit Step(d)` (R12). -/
def emitStep (d : Dir) (s : State) : State :=
  { s with out := { s.out with steps := s.out.steps ++ [d] } }

/-- `drv_step(d)` (R104): the direction output first, then the pulse. It does not look at `DRVEN`
(R108) and does not change `POS`. -/
def drvStep (d : Dir) (s : State) : State := emitStep d { s with dir := d }

/-- `reply(n, v)` (R12, R76). -/
def reply (n : Digits) (v : Word) (s : State) : State :=
  { s with out := { s.out with reply := some ⟨n, v⟩ } }

/-- `PREQ <- 1`: the command or tick requests a persist (R28). -/
def requestPersist (s : State) : State := { s with preq := true }

/-- The snapshot of the persisted subset (R35, R87). -/
def snapshot (s : State) : BitVec 26 := packPersisted s.hold s.fine s.sdiv s.pos

/-- A command with the precondition "not moving" (R140): while `MOVING` = 1 it is rejected, writes no
register, produces no reply and raises nothing. -/
def whenIdle (s : State) (effect : State → State) : Host.Outcome State Fault Refusal :=
  if s.moving then .next s.begin else .next (effect s.begin)

/-- The result of an evaluation of the pattern encoder (R105; log 6). No register, and no pin: `ms_sel`
follows `FINE` (R106). -/
def showPattern (l : Level) (s : State) : State :=
  { s with out := { s.out with pattern := some (msenc l) } }

/-- The outputs of two events of one clock together (R72, R76): each strobe is driven by at most one
of them. -/
def Output.merge (a b : Output) : Output :=
  { steps := a.steps ++ b.steps
    reply := a.reply.or b.reply
    snap := a.snap.or b.snap
    pattern := a.pattern.or b.pattern
    tx := a.tx ++ b.tx
    nvWrites := a.nvWrites ++ b.nvWrites }

end Sys2Proof.Machine
end

