-- ==== Sys2Proof/Machine/Adapter.lean ====
section
/-! DEFINITION. The evaluations of the adapter's pattern encoder (R105), one for each level. `MSENC` is
a pure function: no register is written (R105), and the result stands in the output (log 6). -/

namespace Sys2Proof.Machine

/-- `MSENC(1)` (R105). -/
def execMsenc1 (s : State) : Host.Outcome State Fault Refusal := .next (showPattern .x1 s.begin)

/-- `MSENC(2)` (R105). -/
def execMsenc2 (s : State) : Host.Outcome State Fault Refusal := .next (showPattern .x2 s.begin)

/-- `MSENC(4)` (R105). -/
def execMsenc4 (s : State) : Host.Outcome State Fault Refusal := .next (showPattern .x4 s.begin)

/-- `MSENC(8)` (R105). -/
def execMsenc8 (s : State) : Host.Outcome State Fault Refusal := .next (showPattern .x8 s.begin)

/-- `MSENC(16)` (R105). -/
def execMsenc16 (s : State) : Host.Outcome State Fault Refusal := .next (showPattern .x16 s.begin)

/-- `MSENC(32)` (R105). -/
def execMsenc32 (s : State) : Host.Outcome State Fault Refusal := .next (showPattern .x32 s.begin)

end Sys2Proof.Machine
end

