-- ==== Sys2Proof/Machine/Configure.lean ====
section
/-! DEFINITION. The configuration commands (43_config_commands.md). -/

namespace Sys2Proof.Machine

/-- `SET_FULL` (R160). -/
def execSetFull (_data : Word) (s : State) : Host.Outcome State Fault Refusal :=
  whenIdle s fun t => requestPersist { t with fine := false }

/-- `SET_HALF` (R161). -/
def execSetHalf (_data : Word) (s : State) : Host.Outcome State Fault Refusal :=
  whenIdle s fun t => requestPersist { t with fine := true }

/-- `SET_SDIV v` (R162): any value, stored as it is; `DIVCNT` is not cleared. -/
def execSetSdiv (data : Word) (s : State) : Host.Outcome State Fault Refusal :=
  whenIdle s fun t => requestPersist { t with sdiv := sdivOperand data }

/-- `HOLD_ON` (R163): in every state; the driver is enabled at once. -/
def execHoldOn (_data : Word) (s : State) : Host.Outcome State Fault Refusal :=
  .next (requestPersist (drvEnable { s.begin with hold := true }))

/-- `HOLD_OFF` (R164): in every state; the driver stays as it is and the countdown is armed; `PREQ` is
not written. -/
def execHoldOff (_data : Word) (s : State) : Host.Outcome State Fault Refusal :=
  .next (arm { s.begin with hold := false })

end Sys2Proof.Machine
end

