-- ==== Sys2Proof/Machine/Motion.lean ====
section
/-! DEFINITION. The motion commands (42_motion_commands.md). -/

namespace Sys2Proof.Machine

/-- `STOP` (R141): in every state; `PREQ` is not written. -/
def execStop (_data : Word) (s : State) : Host.Outcome State Fault Refusal :=
  .next (arm { s.begin with moving := false, tgt := s.pos })

/-- `SET_POSITION v` (R142). -/
def execSetPosition (data : Word) (s : State) : Host.Outcome State Fault Refusal :=
  whenIdle s fun t => requestPersist { t with pos := posOperand data }

/-- `SET_TARGET v` (R143). -/
def execSetTarget (data : Word) (s : State) : Host.Outcome State Fault Refusal :=
  whenIdle s fun t => { t with tgt := posOperand data }

/-- `GO` (R144): the flag and nothing else. -/
def execGo (_data : Word) (s : State) : Host.Outcome State Fault Refusal :=
  .next { s.begin with moving := true }

end Sys2Proof.Machine
end

