-- ==== Sys2Proof/Machine/Query.lean ====
section
/-! DEFINITION. The query commands and the unrecognized command (44_query_commands.md). -/

namespace Sys2Proof.Machine

/-- `GET_POSITION` (R181). -/
def execGetPosition (_data : Word) (s : State) : Host.Outcome State Fault Refusal :=
  .next (reply .four s.pos s.begin)

/-- `GET_TARGET` (R182). -/
def execGetTarget (_data : Word) (s : State) : Host.Outcome State Fault Refusal :=
  .next (reply .four s.tgt s.begin)

/-- `GET_HALF` (R183): the flag, not the level. -/
def execGetHalf (_data : Word) (s : State) : Host.Outcome State Fault Refusal :=
  .next (reply .two (if s.fine then 0x00FF#16 else 0x0000#16) s.begin)

/-- `GET_MOVING` (R184). -/
def execGetMoving (_data : Word) (s : State) : Host.Outcome State Fault Refusal :=
  .next (reply .two (if s.moving then 0x0001#16 else 0x0000#16) s.begin)

/-- `GET_VERSION` (R185): fixed. -/
def execGetVersion (_data : Word) (s : State) : Host.Outcome State Fault Refusal :=
  .next (reply .two 0x0001#16 s.begin)

/-- `GET_BACKLIGHT` (R186): fixed. -/
def execGetBacklight (_data : Word) (s : State) : Host.Outcome State Fault Refusal :=
  .next (reply .two 0x0000#16 s.begin)

/-- `GET_SDIV` (R187): zero-extended (R76). -/
def execGetSdiv (_data : Word) (s : State) : Host.Outcome State Fault Refusal :=
  .next (reply .two (s.sdiv.setWidth 16) s.begin)

/-- `GET_TEMP` (R188): fixed. -/
def execGetTemp (_data : Word) (s : State) : Host.Outcome State Fault Refusal :=
  .next (reply .four 0x0000#16 s.begin)

/-- `UNRECOGNIZED` (R189): a silent no-op. -/
def execUnrecognized (_op : Byte) (_data : Word) (s : State) : Host.Outcome State Fault Refusal :=
  .next s.begin

end Sys2Proof.Machine
end

