-- ==== Sys2Proof/Machine/Command.lean ====
section
/-! DEFINITION. The event `CMD`: the command word is decoded by R74 and the operation executed. -/

namespace Sys2Proof.Machine

/-- `CMD(word)` (R71, R140): the row of R74 that the word's `op` selects, on the word's `data`. -/
def execCmd (w : BitVec 24) (s : State) : Host.Outcome State Fault Refusal :=
  match opOf (opField w) with
  | .stop => execStop (dataField w) s
  | .getPosition => execGetPosition (dataField w) s
  | .setPosition => execSetPosition (dataField w) s
  | .getTarget => execGetTarget (dataField w) s
  | .setTarget => execSetTarget (dataField w) s
  | .go => execGo (dataField w) s
  | .getHalf => execGetHalf (dataField w) s
  | .setFull => execSetFull (dataField w) s
  | .setHalf => execSetHalf (dataField w) s
  | .getMoving => execGetMoving (dataField w) s
  | .getVersion => execGetVersion (dataField w) s
  | .getBacklight => execGetBacklight (dataField w) s
  | .getSdiv => execGetSdiv (dataField w) s
  | .setSdiv => execSetSdiv (dataField w) s
  | .getTemp => execGetTemp (dataField w) s
  | .holdOn => execHoldOn (dataField w) s
  | .holdOff => execHoldOff (dataField w) s
  | .unrecognized => execUnrecognized (opField w) (dataField w) s

end Sys2Proof.Machine
end

