-- ==== Sys2Proof/Machine/Services.lean ====
section
/-! DEFINITION. The host services of the block: `PERSIST_TAKE`, `FORCE_DISABLE`
(45_host_services.md) and `RESET` (70_reset_and_hazards.md). -/

namespace Sys2Proof.Machine

/-- `PERSIST_TAKE` (R200): the snapshot and the clearing of `PREQ` in one transition. -/
def execPersistTake (s : State) : Host.Outcome State Fault Refusal :=
  .next { s with preq := false, out := { Output.idle with snap := some (snapshot s) } }

/-- `FORCE_DISABLE` (R201): `HOLD`, `MOVING` and the countdown keep their values. -/
def execForceDisable (s : State) : Host.Outcome State Fault Refusal :=
  .next (drvDisable s.begin)

/-- `RESET(init)` (R260, R37). `DIR` has no specified value after it: a free one (R32, U6, log 2). -/
def execReset (init : BitVec 26) (s : State) : Host.Outcome State Fault Refusal :=
  .next
    { s.begin with
      pos := persistedPos init
      tgt := persistedPos init
      fine := persistedFine init
      sdiv := persistedSdiv init
      hold := persistedHold init
      moving := false
      drven := false
      preq := false
      divcnt := 0#8
      disreq := false
      discnt := 0
      dir := Config.freeDir s.draws
      draws := s.draws + 1 }

end Sys2Proof.Machine
end

