-- ==== Sys2Proof/Machine/Tick.lean ====
section
/-! DEFINITION. The tick, step by step (41_tick.md). -/

namespace Sys2Proof.Machine

/-- Step 1, the delayed-disable countdown (R121): decrement, then test; at zero the request is consumed
whatever `HOLD` is. -/
def tickCountdown (s : State) : State :=
  if countingDown s then
    if s.discnt - 1 = 0 then
      if s.hold then { s with discnt := s.discnt - 1, disreq := false }
      else drvDisable { s with discnt := s.discnt - 1, disreq := false }
    else { s with discnt := s.discnt - 1 }
  else s

/-- Step 2's increment (R123). -/
def tickIncrement (s : State) : State := { s with divcnt := s.divcnt + 1#8 }

/-- Step 4, auto-enable (R125). -/
def tickEnable (s : State) : State :=
  if !atTarget s && !s.drven then drvEnable s else s

/-- Step 5, one step toward the target (R126). -/
def tickMove (s : State) : State :=
  if mustStepForward s then { drvStep .fwd s with pos := s.pos + 1#16 }
  else if mustStepBackward s then { drvStep .bwd s with pos := s.pos - 1#16 }
  else s

/-- Step 6, arrival (R127), on the `POS` that step 5 has just written (R120). -/
def tickArrive (s : State) : State :=
  if atTarget s then arm (requestPersist { s with moving := false }) else s

/-- Steps 3 to 6, on an acting tick (R124 to R127). -/
def tickAct (s : State) : State :=
  if idle s then s else tickArrive (tickMove (tickEnable s))

/-- Steps 2 to 6: the decimator (R123) lets an acting tick through and clears the counter. -/
def tickDecimate (s : State) : State :=
  if belowDivisor (tickIncrement s) then tickIncrement s
  else tickAct { tickIncrement s with divcnt := 0#8 }

/-- `TICK` (R120). -/
def execTick (s : State) : Host.Outcome State Fault Refusal :=
  .next (tickDecimate (tickCountdown s.begin))

end Sys2Proof.Machine
end

