-- ==== Sys2Proof/Machine/Dispatch.lean ====
section
/-! DEFINITION. Which meaning each instruction has. -/

namespace Sys2Proof.Machine

/-- The next state and output of one instruction (R13). -/
def exec (i : Instr) (s : State) : Host.Outcome State Fault Refusal :=
  match i with
  | .stop d => Sys2Proof.Machine.execStop d s
  | .getPosition d => Sys2Proof.Machine.execGetPosition d s
  | .setPosition d => Sys2Proof.Machine.execSetPosition d s
  | .getTarget d => Sys2Proof.Machine.execGetTarget d s
  | .setTarget d => Sys2Proof.Machine.execSetTarget d s
  | .go d => Sys2Proof.Machine.execGo d s
  | .getHalf d => Sys2Proof.Machine.execGetHalf d s
  | .setFull d => Sys2Proof.Machine.execSetFull d s
  | .setHalf d => Sys2Proof.Machine.execSetHalf d s
  | .getMoving d => Sys2Proof.Machine.execGetMoving d s
  | .getVersion d => Sys2Proof.Machine.execGetVersion d s
  | .getBacklight d => Sys2Proof.Machine.execGetBacklight d s
  | .getSdiv d => Sys2Proof.Machine.execGetSdiv d s
  | .setSdiv d => Sys2Proof.Machine.execSetSdiv d s
  | .getTemp d => Sys2Proof.Machine.execGetTemp d s
  | .holdOn d => Sys2Proof.Machine.execHoldOn d s
  | .holdOff d => Sys2Proof.Machine.execHoldOff d s
  | .unrecognized op d => Sys2Proof.Machine.execUnrecognized op d s
  | .tick => Sys2Proof.Machine.execTick s
  | .cmd w => Sys2Proof.Machine.execCmd w s
  | .persistTake => Sys2Proof.Machine.execPersistTake s
  | .forceDisable => Sys2Proof.Machine.execForceDisable s
  | .reset init => Sys2Proof.Machine.execReset init s
  | .msenc1 => Sys2Proof.Machine.execMsenc1 s
  | .msenc2 => Sys2Proof.Machine.execMsenc2 s
  | .msenc4 => Sys2Proof.Machine.execMsenc4 s
  | .msenc8 => Sys2Proof.Machine.execMsenc8 s
  | .msenc16 => Sys2Proof.Machine.execMsenc16 s
  | .msenc32 => Sys2Proof.Machine.execMsenc32 s

end Sys2Proof.Machine
end

