-- ==== Sys2Proof/Machine/Serial.lean ====
section
/-! DEFINITION. The serial framing, the command dispatcher's tables and the hexadecimal conversions
(environment: R77, R81 to R83, R203 to R205). Characters are ASCII codes (PRESUMED, log 25). -/

namespace Sys2Proof.Machine

/-- The start byte `:` (R81). -/
def startByte : Byte := 0x3A

/-- The terminator `#` (R81). -/
def endByte : Byte := 0x23

/-- The receive buffer's capacity in content bytes (R8, R203). -/
def bufferCapacity : Nat := 8

/-- A receiver state whose buffer holds no more than its capacity. -/
def clampRx (r : Rx) : Rx :=
  match r with
  | .idle => .idle
  | .collecting content => .collecting (content.take bufferCapacity)
  | .discarding => .discarding

/-- What the receiver does with a byte no rule speaks of (U4, log 13). -/
def rxStray (n : Nat) (r : Rx) (b : Byte) : Rx × Option (List Byte) :=
  (clampRx (Config.strayByte n r b).1, (Config.strayByte n r b).2)

/-- One byte at the receiver (R203): its next state, and the content of the message that the byte
completes, framing stripped. `n` is a fresh number for what is left open (U4, log 13). -/
def rxByte (n : Nat) (r : Rx) (b : Byte) : Rx × Option (List Byte) :=
  match r with
  | .idle => if b = startByte then (.collecting [], none) else rxStray n r b
  | .collecting content =>
    if b = endByte then (.idle, some content)
    else if b = startByte then rxStray n r b
    else if content.length < bufferCapacity then (.collecting (content ++ [b]), none)
    else if Config.overflowSkipsToEnd n content then (.discarding, none)
    else (.idle, none)
  | .discarding =>
    if b = endByte then (.idle, none)
    else if b = startByte then rxStray n r b
    else (.discarding, none)

/-- Whether a byte makes the message being received exceed the buffer, so that it is discarded
(R203). -/
def overflows (r : Rx) (b : Byte) : Bool :=
  match r with
  | .collecting content =>
    decide (b ≠ endByte) && decide (b ≠ startByte) && decide (bufferCapacity ≤ content.length)
  | .idle => false
  | .discarding => false

/-- The seven codes the source shows (R82). -/
def knownCode (c1 c2 : Byte) : Option Op :=
  match c1.toNat, c2.toNat with
  | 0x46, 0x51 => some .stop          -- FQ
  | 0x47, 0x50 => some .getPosition   -- GP
  | 0x53, 0x50 => some .setPosition   -- SP
  | 0x53, 0x4E => some .setTarget     -- SN
  | 0x46, 0x47 => some .go            -- FG
  | 0x47, 0x56 => some .getVersion    -- GV
  | 0x47, 0x54 => some .getTemp       -- GT
  | _, _ => none

/-- The ten operations whose code no source gives (R82), in the table's order. -/
def otherOp (k : Fin 10) : Op :=
  match k.val with
  | 0 => .getTarget
  | 1 => .getHalf
  | 2 => .setFull
  | 3 => .setHalf
  | 4 => .getMoving
  | 5 => .getBacklight
  | 6 => .getSdiv
  | 7 => .setSdiv
  | 8 => .holdOn
  | _ => .holdOff

/-- The command table lookup over the first two characters (R82, R204). -/
def lookupCode (c1 c2 : Byte) : Option Op :=
  match knownCode c1 c2 with
  | some op => some op
  | none => (Config.otherCode c1 c2).map otherOp

/-- The operation code of a command (R74). `UNRECOGNIZED` has many; the least stands for them. -/
def opCode : Op → Byte
  | .stop => 0x00
  | .getPosition => 0x01
  | .setPosition => 0x02
  | .getTarget => 0x03
  | .setTarget => 0x04
  | .go => 0x05
  | .getHalf => 0x06
  | .setFull => 0x07
  | .setHalf => 0x08
  | .getMoving => 0x09
  | .getVersion => 0x0A
  | .getBacklight => 0x0B
  | .getSdiv => 0x0C
  | .setSdiv => 0x0D
  | .getTemp => 0x0E
  | .holdOn => 0x0F
  | .holdOff => 0x10
  | .unrecognized => 0x11

/-- The value of a hexadecimal digit character (R83): `0` to `9`, `A` to `F`. -/
def hexValue (c : Byte) : Option (BitVec 4) :=
  if 0x30#8 ≤ c ∧ c ≤ 0x39#8 then some ((c - 0x30#8).setWidth 4)
  else if 0x41#8 ≤ c ∧ c ≤ 0x46#8 then some ((c - 0x37#8).setWidth 4)
  else none

/-- The character of a hexadecimal digit, uppercase (R77). -/
def hexChar (d : BitVec 4) : Byte :=
  if d < 10#4 then d.setWidth 8 + 0x30#8 else d.setWidth 8 + 0x37#8

/-- Two digits, most significant first (R83). -/
def hexByte (c1 c0 : Byte) : Option Byte :=
  match hexValue c1, hexValue c0 with
  | some h1, some h0 => some (h1 ++ h0)
  | _, _ => none

/-- The payload of a well-formed message (R75, R83): exactly the 0, 2 or 4 hexadecimal characters its
operation expects, zero-extended to 16 bits. `none` for every other payload. -/
def payloadData (digits : Nat) (payload : List Byte) : Option Word :=
  match digits, payload with
  | 0, [] => some 0
  | 2, [c1, c0] => (hexByte c1 c0).map (fun x => x.setWidth 16)
  | 4, [c3, c2, c1, c0] =>
    match hexByte c3 c2, hexByte c1 c0 with
    | some hi, some lo => some (hi ++ lo)
    | _, _ => none
  | _, _ => none

/-- The command a message's content delivers, and its operation (R204). `none`: no code matches, so
nothing is delivered. A known code with a payload that is not what the operation expects delivers an
unspecified `data`, or nothing (U1, U2, U3, log 14); `n` is a fresh number for that. -/
def dispatchMessage (n : Nat) (content : List Byte) : Option (Op × BitVec 24) :=
  match content with
  | c1 :: c2 :: payload =>
    match lookupCode c1 c2 with
    | none => none
    | some op =>
      match payloadData (payloadDigits op) payload with
      | some d => some (op, commandWord (opCode op) d)
      | none => (Config.openPayload n content).map (fun d => (op, commandWord (opCode op) d))
  | _ => none

/-- The characters of a reply (R77): two or four uppercase digits, most significant first, then the
terminator. -/
def renderReply (r : Reply) : List Byte :=
  match r.digits with
  | .two =>
    [hexChar (r.value.extractLsb' 4 4), hexChar (r.value.extractLsb' 0 4), endByte]
  | .four =>
    [ hexChar (r.value.extractLsb' 12 4), hexChar (r.value.extractLsb' 8 4)
    , hexChar (r.value.extractLsb' 4 4), hexChar (r.value.extractLsb' 0 4), endByte ]

end Sys2Proof.Machine
end

