-- ==== Sys2Proof/Machine/Environment.lean ====
section
/-! DEFINITION. What each input does: a clock of the block's ports, and the actions of the software
around the block (environment: R203 to R211). -/

namespace Sys2Proof.Machine

/-- The events of one clock, one after another, each as a whole (R72). The outputs of the clock are
those of its events together. -/
def runEvents (is : List Instr) (s : State) : Host.Outcome State Fault Refusal :=
  match is with
  | [] => .next s.begin
  | i :: rest =>
    andThen (exec i s) fun t =>
      andThen (runEvents rest t) fun u => .next { u with out := t.out.merge u.out }

/-- `LastCommandTimestamp` after a message that did, or did not, count as a parsed command (R207). -/
def noteCommand (counts : Bool) (s : State) : State :=
  if counts then { s with lastCommand := s.now } else s

/-- The dispatcher transmits the characters of the reply, if the command produced one (R205). -/
def transmit (s : State) : State :=
  { s with
    out :=
      { s.out with
        tx :=
          match s.out.reply with
          | some r => renderReply r
          | none => [] } }

/-- Whether a delivered command counts as "successfully parsed": yes, except that a rejected one is
open (R207, U5). -/
def countsAsParsed (op : Op) (s : State) : Bool :=
  !(needsIdle op && s.moving) || Config.refreshOnRejected

/-- A complete message at the dispatcher (R204, R205, R207). -/
def envDispatch (content : List Byte) (s : State) : Host.Outcome State Fault Refusal :=
  match dispatchMessage s.draws content with
  | none => .next (noteCommand Config.refreshOnUnrecognized { s.begin with draws := s.draws + 1 })
  | some (op, w) =>
    andThen (exec (.cmd w) { s with draws := s.draws + 1 }) fun t =>
      .next (noteCommand (countsAsParsed op s) (transmit t))

/-- A byte from the serial transport (R203, R204). A message that is discarded for exceeding the
buffer counts as an unrecognized one (R231, U5). If it refreshes the timestamp, it does so at the byte
that overflows, also where it is dropped up to its terminator: the spec gives no instant (DESIGN CHOICE,
log 16). -/
def envSerialByte (b : Byte) (s : State) : Host.Outcome State Fault Refusal :=
  match rxByte s.draws s.rx b with
  | (r, none) =>
    .next
      (noteCommand (overflows s.rx b && Config.refreshOnUnrecognized)
        { s.begin with rx := r, draws := s.draws + 1 })
  | (r, some content) => envDispatch content { s with rx := r, draws := s.draws + 1 }

/-- The main loop looks at `persist_req` (R210): when it is 1 and no `save()` is in progress, it takes
the snapshot and begins the `save()`. -/
def envService (s : State) : Host.Outcome State Fault Refusal :=
  if s.preq && s.saving.isNone then
    andThen (exec .persistTake s) fun t => .next { t with saving := t.out.snap }
  else .next s.begin

/-- The `save()` in progress runs to its end (R209, R62). -/
def envSave (s : State) : Host.Outcome State Fault Refusal :=
  match s.saving with
  | none => .next s.begin
  | some w =>
    .next
      { s with
        nv := (saveCells (recordCells w) s.nv).1
        saving := none
        out := { Output.idle with nvWrites := (saveCells (recordCells w) s.nv).2 } }

/-- The disconnect check (R207): longer than `DISCONNECT_TIMEOUT` without a command, and the driver is
disabled. At exactly the timeout it is not (DESIGN CHOICE, log 16). -/
def envCheckDisconnect (s : State) : Host.Outcome State Fault Refusal :=
  if s.lastCommand + Config.disconnectTimeout < s.now then exec .forceDisable s
  else .next s.begin

/-- Time passes. -/
def envElapse (d : Nat) (s : State) : Host.Outcome State Fault Refusal :=
  .next { s.begin with now := s.now + d }

/-- Start-up (R208, R262): `load()`, then `RESET` with its result. The repair writes of `load()` are not
torn by a power loss (DESIGN CHOICE, log 26). -/
def envPowerUp (s : State) : Host.Outcome State Fault Refusal :=
  andThen (exec (.reset (loadInit s.nv)) s) fun t =>
    .next
      { t with
        nv := loadMemory s.nv
        saving := none
        rx := .idle
        lastCommand := 0
        now := 0
        out := { t.out with nvWrites := loadWrites s.nv } }

/-- Storage after a `save()` that lost power: of its bytes, those at the offsets that `written` selects
were written (U11). -/
def tornSave (written : BitVec 6) (saving : Option (BitVec 26)) (m : Memory) : Memory :=
  match saving with
  | none => m
  | some w => writeCells ((recordCells w).filter fun c => written.getLsbD c.1) m

/-- A power loss and the start-up after it (U11, R210). -/
def envPowerLoss (written : BitVec 6) (s : State) : Host.Outcome State Fault Refusal :=
  envPowerUp { s with nv := tornSave written s.saving s.nv }

/-- What an input does to the machine. -/
def perform (x : Input) (s : State) : Host.Outcome State Fault Refusal :=
  match x with
  | .clock c => runEvents (decodeClock c) s
  | .setResolution l => exec (msencInstr l) s
  | .serialByte b => envSerialByte b s
  | .service => envService s
  | .save => envSave s
  | .checkDisconnect => envCheckDisconnect s
  | .elapse d => envElapse d s
  | .powerUp => envPowerUp s
  | .powerLoss written => envPowerLoss written s

/-- The machine with one input put before those that wait. -/
def State.withInput (s : State) (x : Input) : State := { s with inputs := x :: s.inputs }

/-- The input that brings a port word to the block: a command word on `cmd_word` with `ev[1]` (R73), a
clock as it is (R71), a selector pattern as the evaluation of its level (log 5, log 6). -/
def inputOf (p : PortWord) : Option Input :=
  match p with
  | .cmd w => some (.clock ⟨0b00010, w, 0⟩)
  | .evt c => some (.clock c)
  | .msel q => (levelOfPattern q).map Input.setResolution

end Sys2Proof.Machine
end

