-- ==== Sys2Proof/Machine/Step.lean ====
section
/-! DEFINITION. One step of the machine: the next input, if there is one. -/

namespace Sys2Proof.Machine

/-- One step. Between events the block simply waits (R206): with no input nothing changes, and the
output ports carry no strobe. -/
def step (s : State) : Host.Outcome State Fault Refusal :=
  match s.inputs with
  | [] => .next s.begin
  | x :: rest => perform x { s with inputs := rest }

/-- The state in which the next step runs the instruction that a word of the opcode table's numbering
stands for (log 4, log 5). -/
def State.withFetchWord (s : State) (nbits w : Nat) : State :=
  match portWordOfTable nbits w with
  | none => s
  | some p =>
    match inputOf p with
    | none => s
    | some x => s.withInput x

end Sys2Proof.Machine
end

