-- ==== Sys2Proof/Machine/Pins.lean ====
section
/-! DEFINITION. The output ports (R70) as functions of the state (R36, R76). -/

namespace Sys2Proof.Machine

/-- `en`: the electrical level of the driver-enable pin (R36). -/
def enPin (s : State) : Bool :=
  if s.drven then Config.enActiveLevel else !Config.enActiveLevel

/-- `dir`: the electrical level of the direction pin (R36). -/
def dirPin (s : State) : Bool :=
  match s.dir with
  | .fwd => Config.dirFwdLevel
  | .bwd => !Config.dirFwdLevel

/-- `ms_sel[2:0]` (R36, R106): it follows `FINE` at every instant. -/
def msSelPins (s : State) : BitVec 3 := msenc (levelOf s.fine)

/-- `persist_req` (R36). -/
def persistReqPin (s : State) : Bool := s.preq

/-- The pulses the last step put on `step` (R36): one per `emit Step(d)`; between pulses it is low. -/
def stepPulses (s : State) : Nat := s.out.steps.length

/-- `rsp_valid` for the last step (R76). -/
def rspValid (s : State) : Bool := s.out.reply.isSome

/-- `rsp_digits` while `rsp_valid` = 1 (R76): 1 for four digits, 0 for two. While `rsp_valid` = 0 the spec
gives the port no value, and neither does the model (DESIGN CHOICE, log 27). -/
def rspDigits (s : State) : Option Bool := s.out.reply.map fun r => decide (r.digits = .four)

/-- `rsp_data` while `rsp_valid` = 1 (R76). While `rsp_valid` = 0 the spec gives the port no value, and
neither does the model (DESIGN CHOICE, log 27). -/
def rspData (s : State) : Option Word := s.out.reply.map fun r => r.value

/-- `snap`, with the `PERSIST_TAKE` event (R70, R87). In a step without that event the spec gives the port
no value, and neither does the model (DESIGN CHOICE, log 27). -/
def snapPort (s : State) : Option (BitVec 26) := s.out.snap

end Sys2Proof.Machine
end

