-- ==== Sys2Proof/Safety.lean ====
section
/-! DEFINITION. The terms claims are stated in: the invariants of 10_state.md, runs of ticks and of
inputs, and which event writes which register. -/

namespace Sys2Proof.Machine

/-- R38 (a): `DISREQ` = 1 implies 1 ≤ `DISCNT` ≤ `DISABLE_DELAY_TICKS`, and `DISREQ` = 0 implies
`DISCNT` = 0. -/
def CountdownOk (s : State) : Prop :=
  (s.disreq = true → 1 ≤ s.discnt ∧ s.discnt ≤ Config.disableDelayTicks) ∧
    (s.disreq = false → s.discnt = 0)

/-- R38 (b): `DIVCNT` ≤ 254. -/
def DecimatorOk (s : State) : Prop := s.divcnt.toNat ≤ 254

/-- R39: `MOVING` = 0 and `HOLD` = 0 and `DISREQ` = 0 together imply `DRVEN` = 0. -/
def DriverOk (s : State) : Prop :=
  s.moving = false → s.hold = false → s.disreq = false → s.drven = false

/-- Storage is in its canonical form. -/
def StorageOk (s : State) : Prop := Memory.wf s.nv = true

/-- The receive buffer holds no more than its capacity (R203). -/
def ReceiverOk (s : State) : Prop :=
  ∀ content, s.rx = .collecting content → content.length ≤ bufferCapacity

/-- The last command does not lie in the future (R207: a monotonic time). -/
def TimeOk (s : State) : Prop := s.lastCommand ≤ s.now

/-- What holds in every state that a run from reset reaches. -/
structure Inv (s : State) : Prop where
  countdown : CountdownOk s
  decimator : DecimatorOk s
  driver : DriverOk s
  storage : StorageOk s
  receiver : ReceiverOk s
  time : TimeOk s

/-- The state after one `TICK`. -/
def afterTick (s : State) : State :=
  match exec .tick s with
  | .next t => t
  | .fault _ => s
  | .refused _ => s

/-- The state after `n` ticks and nothing else. -/
def afterTicks (n : Nat) (s : State) : State :=
  match n with
  | 0 => s
  | k + 1 => afterTicks k (afterTick s)

/-- The machine after a sequence of inputs, performed one after another. -/
def performAll (xs : List Input) (s : State) : Host.Outcome State Fault Refusal :=
  match xs with
  | [] => .next s
  | x :: rest => andThen (perform x s) (performAll rest)

/-- |`TGT` − `POS`|, the distance a move has left (R131). -/
def distance (s : State) : Nat :=
  (s.tgt.toNat - s.pos.toNat) + (s.pos.toNat - s.tgt.toNat)

/-- max(`SDIV`, 1), the ticks a step takes (R131's m). -/
def period (s : State) : Nat := max s.sdiv.toNat 1

/-- The number of the first acting tick from here on, counted from 1 (R131's t1). -/
def firstActing (s : State) : Nat := max 1 (period s - s.divcnt.toNat)

/-- How many of the next `n` ticks act (R131). -/
def actingTicks (s : State) (n : Nat) : Nat :=
  if n < firstActing s then 0 else 1 + (n - firstActing s) / period s

/-- The twelve registers (R20). -/
inductive Register
  | pos
  | tgt
  | moving
  | fine
  | sdiv
  | hold
  | drven
  | preq
  | divcnt
  | disreq
  | discnt
  | dir
  deriving DecidableEq, Repr

/-- A register has the same value in two states. -/
def SameRegister (r : Register) (s t : State) : Prop :=
  match r with
  | .pos => t.pos = s.pos
  | .tgt => t.tgt = s.tgt
  | .moving => t.moving = s.moving
  | .fine => t.fine = s.fine
  | .sdiv => t.sdiv = s.sdiv
  | .hold => t.hold = s.hold
  | .drven => t.drven = s.drven
  | .preq => t.preq = s.preq
  | .divcnt => t.divcnt = s.divcnt
  | .disreq => t.disreq = s.disreq
  | .discnt => t.discnt = s.discnt
  | .dir => t.dir = s.dir

/-- The registers that a command's row of R34 has a non-blank cell for. -/
def commandWrites : Op → List Register
  | .stop => [.tgt, .moving, .disreq, .discnt]
  | .setPosition => [.pos, .preq]
  | .setTarget => [.tgt]
  | .go => [.moving]
  | .setFull => [.fine, .preq]
  | .setHalf => [.fine, .preq]
  | .setSdiv => [.sdiv, .preq]
  | .holdOn => [.hold, .drven, .preq]
  | .holdOff => [.hold, .disreq, .discnt]
  | .getPosition => []
  | .getTarget => []
  | .getHalf => []
  | .getMoving => []
  | .getVersion => []
  | .getBacklight => []
  | .getSdiv => []
  | .getTemp => []
  | .unrecognized => []

/-- The registers that an instruction's row of R34 has a non-blank cell for. `MSENC` writes none
(R105). -/
def writes : Instr → List Register
  | .stop _ => commandWrites .stop
  | .getPosition _ => commandWrites .getPosition
  | .setPosition _ => commandWrites .setPosition
  | .getTarget _ => commandWrites .getTarget
  | .setTarget _ => commandWrites .setTarget
  | .go _ => commandWrites .go
  | .getHalf _ => commandWrites .getHalf
  | .setFull _ => commandWrites .setFull
  | .setHalf _ => commandWrites .setHalf
  | .getMoving _ => commandWrites .getMoving
  | .getVersion _ => commandWrites .getVersion
  | .getBacklight _ => commandWrites .getBacklight
  | .getSdiv _ => commandWrites .getSdiv
  | .setSdiv _ => commandWrites .setSdiv
  | .getTemp _ => commandWrites .getTemp
  | .holdOn _ => commandWrites .holdOn
  | .holdOff _ => commandWrites .holdOff
  | .unrecognized _ _ => commandWrites .unrecognized
  | .tick => [.pos, .moving, .drven, .preq, .divcnt, .disreq, .discnt, .dir]
  | .cmd w => commandWrites (opOf (opField w))
  | .persistTake => [.preq]
  | .forceDisable => [.drven]
  | .reset _ =>
    [.pos, .tgt, .moving, .fine, .sdiv, .hold, .drven, .preq, .divcnt, .disreq, .discnt, .dir]
  | .msenc1 => []
  | .msenc2 => []
  | .msenc4 => []
  | .msenc8 => []
  | .msenc16 => []
  | .msenc32 => []

end Sys2Proof.Machine
end

