-- ==== Sys2Proof/Certificates/Slice0/Obligations.lean ====
section
/-! DEFINITION. The statements for the provers. A statement about one instruction gives its whole next
state, so it is its result, its frame and its completion in one; `s.draws`, `s.out` and `s.inputs` are
the model's own fields. -/

open Sys2Proof Sys2Proof.Machine

/-! ### Encodings -/

/-- R71, R73, R74, R79, R87: decoding the encoding of a well-formed instruction gives it back, with
every operand at every value. -/
def Obligations.DecodeOfEncode : Prop :=
  ∀ i : Instr, i.wf = true → decode (encode i) = .ok i

/-- R74, R75: every command word is one well-formed command, and no bit of the word is lost. -/
def Obligations.EncodeOfDecodeCommand : Prop :=
  ∀ w : BitVec 24, (decodeCommand w).wf = true ∧ encode (decodeCommand w) = .cmd w

/-- R74: "every one of the 256 `op` values matches exactly one row", and it is the row of the
command that the decoder reads. -/
def Obligations.CommandRowsPartitionCommandWords : Prop :=
  ∀ w : BitVec 24,
    ((commandRows ++ unrecognizedRows).filter fun r => decide (w.toNat &&& r.mask = r.bits)).map
        (fun r => r.mnemonic) =
      [(decodeCommand w).mnemonic]

/-- R74, R71, R79, R83: words written out from the spec's encodings. (That a selector pattern is an
instruction, on which the clauses on patterns rest, is the model's choice, log 5, log 6.) -/
def Obligations.WrittenWordsDecode : Prop :=
  decodeCommand 0x044000 = .setTarget 0x4000 ∧ decodeCommand 0x050000 = .go 0 ∧
    decodeCommand 0x01BEEF = .getPosition 0xBEEF ∧ decodeCommand 0x0DAB08 = .setSdiv 0xAB08 ∧
    decodeCommand 0x100000 = .holdOff 0 ∧ decodeCommand 0xFF1234 = .unrecognized 0xFF 0x1234 ∧
    decode (.evt ⟨0b00001, 0, 0⟩) = .ok .tick ∧
    decode (.evt ⟨0b00010, 0x021234, 0⟩) = .ok (.cmd 0x021234) ∧
    decode (.evt ⟨0b00100, 0, 0⟩) = .ok .persistTake ∧
    decode (.evt ⟨0b01000, 0, 0⟩) = .ok .forceDisable ∧
    decode (.evt ⟨0b10000, 0, 0x0020010⟩) = .ok (.reset 0x0020010) ∧
    decode (.evt ⟨0b00011, 0x050000, 0⟩) = .error .coincident ∧
    decode (.evt ⟨0b00000, 0, 0⟩) = .error .noEvent ∧
    decode (.msel 0b011) = .ok .msenc8 ∧ decode (.msel 0b111) = .ok .msenc32 ∧
    decode (.msel 0b101) = .error .reservedPattern

/-- From R79 and R106 (R80, which the spec marks as derived): the patterns `101` and `110` are never
produced, the encoder's domain is the six levels, a number outside them names no level, and the
progression of the patterns breaks at 32. -/
def Obligations.SelectorPatterns : Prop :=
  (∀ s : State, msSelPins s ≠ 0b101 ∧ msSelPins s ≠ 0b110) ∧
    (∀ n : Nat, (∃ l, levelOfMultiplier n = some l) ↔ n ∈ [1, 2, 4, 8, 16, 32]) ∧
    (∀ l : Level, levelOfMultiplier (multiplier l) = some l) ∧
    (∀ l : Level, l ≠ .x32 → 2 ^ (msenc l).toNat = multiplier l) ∧
    msenc .x32 = 0b111 ∧
    (∀ l : Level, levelOfPattern (msenc l) = some l)

/-! ### Steps -/

/-- R71, R73, R206: when the input a step takes is a port word that decodes to an instruction, the
step is that instruction's, in the state that waits for the inputs after it. -/
def Obligations.StepRunsDecodedInstruction : Prop :=
  ∀ (s : State) (p : PortWord) (x : Input) (rest : List Input) (i : Instr),
    inputOf p = some x → s.inputs = x :: rest → decode p = .ok i →
      step s = exec i { s with inputs := rest }

/-- R71, R140: the event `CMD` executes the command that its word decodes to. -/
def Obligations.CmdEventExecutesDecodedCommand : Prop :=
  ∀ (w : BitVec 24) (s : State),
    ∃ t, exec (.cmd w) s = .next t ∧ exec (decodeCommand w) s = .next t

/-- R72: in one clock `RESET` alone if it is there; else `PERSIST_TAKE`, `TICK`, `CMD`,
`FORCE_DISABLE`, each as a whole, on what the one before it left. A clock drives the pulse of its
tick, the reply of its command and the snapshot of its take (showing the outputs of a clock together
is the model's choice, log 7). -/
def Obligations.CoincidentStrobesInOrder : Prop :=
  ∀ (s : State) (c : Clock) (rest : List Input), s.inputs = .clock c :: rest →
    (c.ev.getLsbD 4 = true → step s = exec (.reset c.init) { s with inputs := rest }) ∧
    (c.ev.getLsbD 4 = false →
      ∃ t1 t2 t3 t4,
        (if c.ev.getLsbD 2 then exec .persistTake { s with inputs := rest }
          else .next (State.begin { s with inputs := rest })) = .next t1 ∧
        (if c.ev.getLsbD 0 then exec .tick t1 else .next t1.begin) = .next t2 ∧
        (if c.ev.getLsbD 1 then exec (.cmd c.cmdWord) t2 else .next t2.begin) = .next t3 ∧
        (if c.ev.getLsbD 3 then exec .forceDisable t3 else .next t3.begin) = .next t4 ∧
        step s =
          .next
            { t4 with
              out :=
                { Output.idle with
                  steps := t2.out.steps
                  reply := t3.out.reply
                  snap := t1.out.snap } })

/-- R71, R206: a clock with `ev` = 0 delivers nothing and changes nothing, and neither does the
absence of any input; the strobes on the output ports are those of no event. -/
def Obligations.NoEventChangesNothing : Prop :=
  ∀ (s : State) (w : BitVec 24) (init : BitVec 26) (rest : List Input),
    (s.inputs = .clock ⟨0, w, init⟩ :: rest →
      step s = .next { s with inputs := rest, out := Output.idle }) ∧
    (s.inputs = [] → step s = .next { s with out := Output.idle })

/-- R16, R230: no fault, no trap, no stuck state: every event, and every step, has a next state from
every state. The parameters lie in their ranges. -/
def Obligations.EveryEventHasNextState : Prop :=
  (∀ (i : Instr) (s : State), ∃ t, exec i s = .next t) ∧ (∀ s : State, ∃ t, step s = .next t) ∧
    1 ≤ Config.disableDelayTicks ∧ multiplier Config.coarseLevel ∈ [1, 2, 4, 8, 16, 32] ∧
    multiplier Config.fineLevel ∈ [1, 2, 4, 8, 16, 32]

/-! ### Reset -/

/-- R260: `RESET(init)` installs every register in one transition (`DIR` gets some value, and which
is left open), ignores every other strobe of its clock, produces no step and no reply; `en` is
inactive, `persist_req` 0 and `ms_sel` the pattern of `init.fine` after it. -/
def Obligations.ResetInstallsRegisters : Prop :=
  ∀ (init : BitVec 26) (s : State),
    (∃ d : Dir, exec (.reset init) s =
      .next
        { s with
          pos := init.extractLsb' 0 16
          tgt := init.extractLsb' 0 16
          sdiv := init.extractLsb' 16 8
          fine := init.getLsbD 24
          hold := init.getLsbD 25
          moving := false
          drven := false
          preq := false
          divcnt := 0#8
          disreq := false
          discnt := 0
          dir := d
          draws := s.draws + 1
          out := Output.idle }) ∧
    (∀ (c : Clock) (rest : List Input), c.ev.getLsbD 4 = true → s.inputs = .clock c :: rest →
      step s = exec (.reset c.init) { s with inputs := rest }) ∧
    (∀ t, exec (.reset init) s = .next t →
      enPin t = !Config.enActiveLevel ∧ msSelPins t = msenc (levelOf (init.getLsbD 24)) ∧
        persistReqPin t = false ∧ rspValid t = false ∧ stepPulses t = 0)

/-- R37, R208: the registers of the reset state, with the defaults that `load()` adopts on storage
that was never initialised. (`DIR` there is the model's choice, log 1, and no clause is about it.)
-/
def Obligations.ResetStateRegisters : Prop :=
  State.reset.pos = 0#16 ∧ State.reset.tgt = 0#16 ∧ State.reset.moving = false ∧
    State.reset.fine = Config.defaultFine ∧ State.reset.sdiv = 2#8 ∧ State.reset.hold = false ∧
    State.reset.drven = false ∧ State.reset.preq = false ∧ State.reset.divcnt = 0#8 ∧
    State.reset.disreq = false ∧ State.reset.discnt = 0 ∧ State.reset.nv = loadMemory []

/-- R208, R234, R262: start-up on storage whose marker does not match gives the registers of the
reset state, whatever they held before, and leaves storage holding the sentinel and the defaults. -/
def Obligations.PowerUpOnUninitialisedStorage : Prop :=
  ∀ s : State, Memory.wf s.nv = true → Memory.read s.nv 0 ≠ Config.marker →
    ∃ t, perform .powerUp s = .next t ∧
      (∀ r : Register, r ≠ .dir → SameRegister r State.reset t) ∧
      (∀ c ∈ recordCells defaultInit, Memory.read t.nv c.1 = c.2)

/-! ### The tick -/

/-- R121, R123, R124: the whole next state of a tick in `Idle` with a disable pending. The countdown
runs whether or not the tick acts; at zero the request is consumed and the driver goes off unless
`HOLD` = 1. -/
def Obligations.IdleTickCountsDown : Prop :=
  ∀ s : State, s.moving = false → s.disreq = true → 1 ≤ s.discnt →
    exec .tick s =
      .next
        { s with
          discnt := s.discnt - 1
          disreq := decide (s.discnt ≠ 1)
          drven := if s.discnt = 1 ∧ s.hold = false then false else s.drven
          divcnt := if acts s then 0#8 else s.divcnt + 1#8
          out := Output.idle }

/-- From R121 and R123 (R15's last clause, which the spec marks as derived): in a quiescent state a
tick changes only `DIVCNT`. -/
def Obligations.QuiescentTickChangesOnlyDivcnt : Prop :=
  ∀ s : State, quiescent s = true →
    exec .tick s =
      .next
        { s with
          divcnt := if acts s then 0#8 else s.divcnt + 1#8
          out := Output.idle }

/-- R121, R123, R132: a tick that does not act while moving advances the decimator and nothing else;
the countdown is frozen. -/
def Obligations.NonActingTickWhileMoving : Prop :=
  ∀ s : State, s.moving = true → acts s = false →
    exec .tick s = .next { s with divcnt := s.divcnt + 1#8, out := Output.idle }

/-- R126, R127 (and R125): the whole next state of an acting tick while moving. Away from the
target: the driver enabled, exactly one step toward the target, and the arrival in the same tick
when that step reaches it. At the target: the arrival, with no step and no enable. -/
def Obligations.ActingTickWhileMoving : Prop :=
  ∀ s : State, s.moving = true → acts s = true →
    (s.pos ≠ s.tgt →
      let d := if s.pos < s.tgt then Dir.fwd else Dir.bwd
      let p := if s.pos < s.tgt then s.pos + 1#16 else s.pos - 1#16
      exec .tick s =
        .next
          { s with
            divcnt := 0#8
            drven := true
            dir := d
            pos := p
            moving := decide (p ≠ s.tgt)
            preq := s.preq || decide (p = s.tgt)
            disreq := s.disreq || decide (p = s.tgt)
            discnt := if p = s.tgt then Config.disableDelayTicks else s.discnt
            out := { Output.idle with steps := [d] } }) ∧
    (s.pos = s.tgt →
      exec .tick s =
        .next
          { s with
            divcnt := 0#8
            moving := false
            preq := true
            disreq := true
            discnt := Config.disableDelayTicks
            out := Output.idle })

/-- R124: while `MOVING` = 0, any number of ticks moves nothing, enables nothing, arrives nowhere
and requests no persist. -/
def Obligations.IdleTicksNeverMove : Prop :=
  ∀ (s : State) (n : Nat), s.moving = false →
    (afterTicks n s).pos = s.pos ∧ (afterTicks n s).tgt = s.tgt ∧
      (afterTicks n s).moving = false ∧ (afterTicks n s).preq = s.preq ∧
      (afterTicks n s).dir = s.dir ∧ (1 ≤ n → (afterTicks n s).out = Output.idle) ∧
      ((afterTicks n s).drven = true → s.drven = true)

/-- R21, R126 (R129 and R130, which the spec marks as derived): a tick changes `POS` by at most one,
never wraps it, and never leads away from the target. -/
def Obligations.PositionNeverWraps : Prop :=
  ∀ s t : State, exec .tick s = .next t →
    (t.pos = s.pos ∨
      (s.pos.toNat < s.tgt.toNat ∧ t.pos.toNat = s.pos.toNat + 1) ∨
      (s.tgt.toNat < s.pos.toNat ∧ t.pos.toNat + 1 = s.pos.toNat)) ∧
    (t.pos = s.pos ∨ distance t + 1 = distance s)

/-- From R123 (R134, which the spec marks as derived): `SDIV` 0 and 1 act on every tick; with `SDIV`
= d ≥ 1 and `DIVCNT` = 0 the acting ticks are exactly ticks d, 2d, 3d, …; an `SDIV` at or below
`DIVCNT` makes the next tick act. -/
def Obligations.DivisorSelectsActingTicks : Prop :=
  (∀ (s : State) (n : Nat), DecimatorOk s → s.sdiv.toNat ≤ 1 → acts (afterTicks n s) = true) ∧
    (∀ (s : State) (n : Nat), 1 ≤ s.sdiv.toNat → s.divcnt = 0#8 →
      (acts (afterTicks n s) = true ↔ (n + 1) % s.sdiv.toNat = 0)) ∧
    (∀ s : State, DecimatorOk s → s.sdiv.toNat ≤ s.divcnt.toNat → acts s = true)

/-- R121: a countdown with `DISCNT` = n ends on the n-th tick after, not before: until then the
driver stays as it is, and then it is off unless `HOLD` = 1. While moving it is frozen, and the way
back to `Idle` arms it anew. -/
def Obligations.CountdownEndsOnItsTick : Prop :=
  (∀ s : State, s.moving = false → s.disreq = true → 1 ≤ s.discnt →
    (∀ n, n < s.discnt →
      (afterTicks n s).discnt = s.discnt - n ∧ (afterTicks n s).disreq = true ∧
        (afterTicks n s).drven = s.drven) ∧
    (afterTicks s.discnt s).discnt = 0 ∧ (afterTicks s.discnt s).disreq = false ∧
    (afterTicks s.discnt s).drven = (s.drven && s.hold)) ∧
  (∀ s t : State, s.moving = true → exec .tick s = .next t →
    (t.moving = true → t.disreq = s.disreq ∧ t.discnt = s.discnt) ∧
    (t.moving = false → t.disreq = true ∧ t.discnt = Config.disableDelayTicks))

/-- From R120, R121, R123, R125, R126, R127 (R131, which the spec marks as derived): the whole move.
`GO` in `Idle`, then ticks only: the acting ticks are t1, t1 + m, t1 + 2m, …; the j-th step falls on
tick t1 + (j − 1)·m, all of them toward the target; the move ends on the tick of the last step (on
tick t1 when there is none), with `POS` = `TGT`, `PREQ` = 1 and the countdown armed; with `HOLD` = 0
the driver, on since the first step, is on for `DISABLE_DELAY_TICKS` − 1 more ticks and off after
`DISABLE_DELAY_TICKS`. -/
def Obligations.WholeMoveTiming : Prop :=
  ∀ (s g : State) (data : Word), DecimatorOk s → s.moving = false → exec (.go data) s = .next g →
    let m := period s
    let t1 := firstActing s
    let k := distance s
    let e := t1 + (max k 1 - 1) * m
    (∀ n, acts (afterTicks n g) = true ↔ ∃ i, n + 1 = t1 + i * m) ∧
    (∀ n, (afterTicks n g).out.steps ≠ [] ↔ ∃ j, 1 ≤ j ∧ j ≤ k ∧ n = t1 + (j - 1) * m) ∧
    (∀ n d, d ∈ (afterTicks n g).out.steps → d = if s.pos < s.tgt then Dir.fwd else Dir.bwd) ∧
    (∀ n, (afterTicks n g).moving = decide (n < e)) ∧
    (afterTicks e g).pos = s.tgt ∧ (afterTicks e g).tgt = s.tgt ∧ (afterTicks e g).preq = true ∧
    (afterTicks e g).disreq = true ∧ (afterTicks e g).discnt = Config.disableDelayTicks ∧
    (1 ≤ k → (afterTicks e g).drven = true) ∧
    (∀ n, e ≤ n → n < e + Config.disableDelayTicks →
      (afterTicks n g).drven = (afterTicks e g).drven) ∧
    (s.hold = false → (afterTicks (e + Config.disableDelayTicks) g).drven = false)

/-! ### Motion commands -/

/-- R141: `STOP`, `op` 0x00, clears `MOVING`, copies `POS` to `TGT`, arms the delayed disable, in
every state. -/
def Obligations.StopFreezesTarget : Prop :=
  ∀ (data : Word) (s : State),
    decodeCommand (0x00#8 ++ data) = .stop data ∧
    exec (.stop data) s =
      .next
        { s with
          moving := false
          tgt := s.pos
          disreq := true
          discnt := Config.disableDelayTicks
          out := Output.idle }

/-- R142, R143: `SET_POSITION`, `op` 0x02, and `SET_TARGET`, `op` 0x04. In `Idle` each writes its
register with all 16 bits of `data`, only the first requests a persist, and neither moves anything;
while moving both are rejected. -/
def Obligations.SetPositionAndTarget : Prop :=
  ∀ (v : Word) (s : State),
    decodeCommand (0x02#8 ++ v) = .setPosition v ∧ decodeCommand (0x04#8 ++ v) = .setTarget v ∧
    (s.moving = false →
      exec (.setPosition v) s = .next { s with pos := v, preq := true, out := Output.idle } ∧
      exec (.setTarget v) s = .next { s with tgt := v, out := Output.idle }) ∧
    (s.moving = true →
      exec (.setPosition v) s = .next { s with out := Output.idle } ∧
      exec (.setTarget v) s = .next { s with out := Output.idle })

/-- R144: `GO`, `op` 0x05, sets `MOVING` and nothing else. -/
def Obligations.GoSetsMovingOnly : Prop :=
  ∀ (data : Word) (s : State),
    decodeCommand (0x05#8 ++ data) = .go data ∧
    exec (.go data) s = .next { s with moving := true, out := Output.idle }

/-! ### Configuration commands -/

/-- R160, R161: `SET_FULL`, `op` 0x07, and `SET_HALF`, `op` 0x08. In `Idle`: `FINE` and `PREQ`, and
`ms_sel` follows in the same transition; while moving both are rejected. -/
def Obligations.SetResolution : Prop :=
  ∀ (data : Word) (s : State),
    decodeCommand (0x07#8 ++ data) = .setFull data ∧ decodeCommand (0x08#8 ++ data) = .setHalf data ∧
    (s.moving = false →
      exec (.setFull data) s = .next { s with fine := false, preq := true, out := Output.idle } ∧
      exec (.setHalf data) s = .next { s with fine := true, preq := true, out := Output.idle }) ∧
    (s.moving = true →
      exec (.setFull data) s = .next { s with out := Output.idle } ∧
      exec (.setHalf data) s = .next { s with out := Output.idle }) ∧
    (∀ t : State, t.fine = false → msSelPins t = msenc Config.coarseLevel) ∧
    (∀ t : State, t.fine = true → msSelPins t = msenc Config.fineLevel)

/-- R162: `SET_SDIV`, `op` 0x0D. In `Idle` it stores `data[7:0]` as it is, whatever `data[15:8]` is;
while moving it is rejected. -/
def Obligations.SetSdiv : Prop :=
  ∀ (high low : Byte) (s : State),
    decodeCommand (0x0D#8 ++ (high ++ low)) = .setSdiv (high ++ low) ∧
    (s.moving = false →
      exec (.setSdiv (high ++ low)) s =
        .next { s with sdiv := low, preq := true, out := Output.idle }) ∧
    (s.moving = true → exec (.setSdiv (high ++ low)) s = .next { s with out := Output.idle })

/-- R163: `HOLD_ON`, `op` 0x0F, in every state: `HOLD`, `DRVEN` and `PREQ`. -/
def Obligations.HoldOnEnablesDriver : Prop :=
  ∀ (data : Word) (s : State),
    decodeCommand (0x0F#8 ++ data) = .holdOn data ∧
    exec (.holdOn data) s =
      .next { s with hold := true, drven := true, preq := true, out := Output.idle }

/-- R164: `HOLD_OFF`, `op` 0x10, in every state: `HOLD` and the armed countdown; the driver stays as
it is. -/
def Obligations.HoldOffArmsCountdown : Prop :=
  ∀ (data : Word) (s : State),
    decodeCommand (0x10#8 ++ data) = .holdOff data ∧
    exec (.holdOff data) s =
      .next
        { s with
          hold := false
          disreq := true
          discnt := Config.disableDelayTicks
          out := Output.idle }

/-- R140, R232, by command word: while `MOVING` = 1 exactly the five set commands are rejected (no
register written, no reply), whatever their `data`. The other commands run as they do in `Idle`: on
states that differ in `MOVING` alone they have the same effect on every register but `MOVING`, and
the same reply but for `GET_MOVING`'s. -/
def Obligations.SetCommandsAloneAreRejected : Prop :=
  ∀ (w : BitVec 24) (s : State), s.moving = true →
    (opField w ∈ [0x02#8, 0x04#8, 0x07#8, 0x08#8, 0x0D#8] →
      exec (.cmd w) s = .next { s with out := Output.idle }) ∧
    (opField w ∉ [0x02#8, 0x04#8, 0x07#8, 0x08#8, 0x0D#8] →
      ∃ t u, exec (.cmd w) s = .next t ∧ exec (.cmd w) { s with moving := false } = .next u ∧
        (∀ r : Register, r ≠ .moving → SameRegister r t u) ∧
        (opField w ≠ 0x09#8 → t.out = u.out))

/-! ### Queries -/

/-- R181, R182, R183, R184, R187: the queries of live registers, `op` 0x01, 0x03, 0x06, 0x09, 0x0C,
in every state: one reply each, no register written. -/
def Obligations.LiveQueriesReply : Prop :=
  ∀ (data : Word) (s : State),
    decodeCommand (0x01#8 ++ data) = .getPosition data ∧
    decodeCommand (0x03#8 ++ data) = .getTarget data ∧
    decodeCommand (0x06#8 ++ data) = .getHalf data ∧
    decodeCommand (0x09#8 ++ data) = .getMoving data ∧
    decodeCommand (0x0C#8 ++ data) = .getSdiv data ∧
    exec (.getPosition data) s =
      .next { s with out := { Output.idle with reply := some ⟨.four, s.pos⟩ } } ∧
    exec (.getTarget data) s =
      .next { s with out := { Output.idle with reply := some ⟨.four, s.tgt⟩ } } ∧
    exec (.getHalf data) s =
      .next
        { s with
          out := { Output.idle with reply := some ⟨.two, if s.fine then 0xFF#16 else 0x00#16⟩ } } ∧
    exec (.getMoving data) s =
      .next
        { s with
          out := { Output.idle with reply := some ⟨.two, if s.moving then 0x01#16 else 0x00#16⟩ } } ∧
    exec (.getSdiv data) s =
      .next { s with out := { Output.idle with reply := some ⟨.two, 0#8 ++ s.sdiv⟩ } }

/-- R185, R186, R188: the queries with a fixed reply, `op` 0x0A, 0x0B, 0x0E. -/
def Obligations.FixedQueriesReply : Prop :=
  ∀ (data : Word) (s : State),
    decodeCommand (0x0A#8 ++ data) = .getVersion data ∧
    decodeCommand (0x0B#8 ++ data) = .getBacklight data ∧
    decodeCommand (0x0E#8 ++ data) = .getTemp data ∧
    exec (.getVersion data) s =
      .next { s with out := { Output.idle with reply := some ⟨.two, 0x01#16⟩ } } ∧
    exec (.getBacklight data) s =
      .next { s with out := { Output.idle with reply := some ⟨.two, 0x00#16⟩ } } ∧
    exec (.getTemp data) s =
      .next { s with out := { Output.idle with reply := some ⟨.four, 0x0000#16⟩ } }

/-- R189: every `op` from 0x11 on is `UNRECOGNIZED`: no register changes and there is no reply, no
step and no snapshot. At the serial level the same holds of a message that matches no code, and of
one that is discarded for exceeding the buffer. -/
def Obligations.UnrecognizedIsSilent : Prop :=
  (∀ (op : Byte) (data : Word) (s : State), 0x11#8 ≤ op →
    decodeCommand (op ++ data) = .unrecognized op data ∧
    exec (.unrecognized op data) s = .next { s with out := Output.idle } ∧
    rspValid { s with out := Output.idle } = false) ∧
  (∀ (content : List Byte) (s : State), dispatchMessage s.draws content = none →
    ∃ t, envDispatch content s = .next t ∧ (∀ r : Register, SameRegister r s t) ∧
      t.out = Output.idle) ∧
  (∀ (b : Byte) (s : State), overflows s.rx b = true →
    ∃ t, perform (.serialByte b) s = .next t ∧ (∀ r : Register, SameRegister r s t) ∧
      t.out = Output.idle)

/-- R61, R180: the eight queries, in every state: each writes no register and produces exactly one
reply, `data` is ignored (`i` and `j` are one query with two payloads), and repeated it gives the
same reply. -/
def Obligations.QueriesHaveNoSideEffect : Prop :=
  ∀ (x y : Word) (s : State) (i j : Instr),
    (i, j) ∈
      [(.getPosition x, .getPosition y), (.getTarget x, .getTarget y), (.getHalf x, .getHalf y),
        (.getMoving x, .getMoving y), (.getVersion x, .getVersion y),
        (.getBacklight x, .getBacklight y), (.getSdiv x, .getSdiv y), (.getTemp x, .getTemp y)] →
    ∃ t, exec i s = .next t ∧ exec j s = .next t ∧ (∀ r : Register, SameRegister r s t) ∧
      rspValid t = true ∧ exec i t = .next t

/-! ### Host services and the encoder -/

/-- R200, R87: `PERSIST_TAKE` answers the snapshot of the four persisted registers and clears
`PREQ`. -/
def Obligations.PersistTakeSnapshots : Prop :=
  ∀ s : State,
    exec .persistTake s =
      .next
        { s with
          preq := false
          out :=
            { Output.idle with
              snap :=
                some (BitVec.ofBool s.hold ++ BitVec.ofBool s.fine ++ s.sdiv ++ s.pos) } }

/-- R201: `FORCE_DISABLE` clears `DRVEN` and nothing else. -/
def Obligations.ForceDisableClearsDrven : Prop :=
  ∀ s : State, exec .forceDisable s = .next { s with drven := false, out := Output.idle }

/-- R105: the six evaluations of the pattern encoder: the pattern of the level, and no register
written. (That the result stands in an output field of the state is the model's choice, log 6.) -/
def Obligations.EncoderEvaluations : Prop :=
  ∀ s : State,
    exec .msenc1 s = .next { s with out := { Output.idle with pattern := some 0b000#3 } } ∧
    exec .msenc2 s = .next { s with out := { Output.idle with pattern := some 0b001#3 } } ∧
    exec .msenc4 s = .next { s with out := { Output.idle with pattern := some 0b010#3 } } ∧
    exec .msenc8 s = .next { s with out := { Output.idle with pattern := some 0b011#3 } } ∧
    exec .msenc16 s = .next { s with out := { Output.idle with pattern := some 0b100#3 } } ∧
    exec .msenc32 s = .next { s with out := { Output.idle with pattern := some 0b111#3 } }

/-- R87: the layout of the snapshot, field by field, and that a snapshot fed back as `init` restores
the persisted subset exactly. -/
def Obligations.SnapshotRestoresPersistedSubset : Prop :=
  ∀ (s t u : State) (w : BitVec 26), exec .persistTake s = .next t → t.out.snap = some w →
    w.extractLsb' 0 16 = s.pos ∧ w.extractLsb' 16 8 = s.sdiv ∧ w.getLsbD 24 = s.fine ∧
    w.getLsbD 25 = s.hold ∧
    ∃ r, exec (.reset w) u = .next r ∧ r.pos = s.pos ∧ r.fine = s.fine ∧ r.sdiv = s.sdiv ∧
      r.hold = s.hold

/-- R36: the output levels follow the registers. -/
def Obligations.PinsFollowRegisters : Prop :=
  ∀ s : State,
    (enPin s = Config.enActiveLevel ↔ s.drven = true) ∧
    (dirPin s = Config.dirFwdLevel ↔ s.dir = .fwd) ∧
    msSelPins s = msenc (if s.fine then Config.fineLevel else Config.coarseLevel) ∧
    persistReqPin s = s.preq ∧ stepPulses s = s.out.steps.length

/-! ### Rules of the whole machine -/

/-- R34: no event writes a register whose cell in its row of the access table is blank; a "cond"
cell is written only when `MOVING` = 0. -/
def Obligations.WriteAccessTable : Prop :=
  ∀ (i : Instr) (s t : State) (r : Register), exec i s = .next t →
    (r ∉ writes i → SameRegister r s t) ∧
    (∀ w, (i = .cmd w ∨ encode i = .cmd w) → needsIdle (opOf (opField w)) = true →
      s.moving = true → SameRegister r s t)

/-- R13: at most one pulse, and from a `TICK` only; a reply from a command only; a snapshot from
`PERSIST_TAKE` only. -/
def Obligations.OutputsBelongToTheirEvents : Prop :=
  ∀ (i : Instr) (s t : State), exec i s = .next t →
    t.out.steps.length ≤ 1 ∧ (t.out.steps ≠ [] → i = .tick) ∧
    (t.out.reply ≠ none → ∃ w, i = .cmd w ∨ encode i = .cmd w) ∧
    (t.out.snap ≠ none → i = .persistTake)

/-- From R125 and R126 (R109, which the spec marks as derived): every step is emitted with `DRVEN` =
1, with `DIR` at its direction, and while moving. -/
def Obligations.StepsOnlyWhileEnabled : Prop :=
  ∀ (i : Instr) (s t : State) (d : Dir), exec i s = .next t → d ∈ t.out.steps →
    t.drven = true ∧ t.dir = d ∧ s.moving = true

/-- R23, R42: `MOVING` rises by `GO` and by nothing else, and falls by `STOP`, by the tick that
finds `POS` = `TGT`, and by `RESET`. -/
def Obligations.MotionFlagTransitions : Prop :=
  ∀ (i : Instr) (s t : State), exec i s = .next t →
    (s.moving = false → t.moving = true →
      ∃ w, (i = .cmd w ∨ encode i = .cmd w) ∧ opField w = 0x05#8) ∧
    (s.moving = true → t.moving = false →
      (∃ w, (i = .cmd w ∨ encode i = .cmd w) ∧ opField w = 0x00#8) ∨
      (i = .tick ∧ t.pos = t.tgt) ∨ (∃ init, i = .reset init))

/-- R22, R24, R25, R106: while `MOVING` = 1 nothing but `RESET` changes `FINE`, `SDIV` or `ms_sel`,
and `TGT` changes only to `POS` (by `STOP`). -/
def Obligations.SettingsFixedWhileMoving : Prop :=
  ∀ (i : Instr) (s t : State), exec i s = .next t → s.moving = true → (∀ init, i ≠ .reset init) →
    t.fine = s.fine ∧ t.sdiv = s.sdiv ∧ msSelPins t = msSelPins s ∧ (t.tgt = s.tgt ∨ t.tgt = s.pos)

/-- R28, R270: a persist request is never lost: only `PERSIST_TAKE`, whose snapshot holds the
persisted registers of that moment, and `RESET` clear `PREQ`. -/
def Obligations.PersistRequestIsNotLost : Prop :=
  ∀ (i : Instr) (s t : State), exec i s = .next t → s.preq = true → t.preq = false →
    (i = .persistTake ∧
      t.out.snap = some (BitVec.ofBool s.hold ++ BitVec.ofBool s.fine ++ s.sdiv ++ s.pos)) ∨
    (∃ init, i = .reset init)

/-- R32: no rule reads `DIR`: two states that differ in `DIR` alone have next states that differ in
`DIR` alone. -/
def Obligations.DirectionIsNeverRead : Prop :=
  ∀ (i : Instr) (s t : State) (d : Dir), exec i s = .next t →
    ∃ d', exec i { s with dir := d } = .next { t with dir := d' }

/-- R33, R50, R51: no event of the block reaches storage or any other part of the environment: every
byte of storage reads as before. -/
def Obligations.EventsLeaveEnvironment : Prop :=
  ∀ (i : Instr) (s t : State), exec i s = .next t →
    (∀ a, Memory.read t.nv a = Memory.read s.nv a) ∧ t.nv = s.nv ∧ t.saving = s.saving ∧
    t.rx = s.rx ∧ t.lastCommand = s.lastCommand ∧ t.now = s.now ∧ t.inputs = s.inputs

/-- R51, R203, R207 (and R38, R39, which the spec marks as derived): every step keeps the invariant:
the countdown and decimator bounds, an idle driver without hold or pending disable is off, storage
canonical, the receive buffer within its capacity, the last command not in the future. -/
def Obligations.StepKeepsInvariant : Prop :=
  ∀ s t : State, Inv s → step s = .next t → Inv t

/-- R37: the invariant holds at reset. -/
def Obligations.InvariantAtReset : Prop :=
  Inv State.reset

/-! ### The environment -/

/-- R209: `save()` followed by `load()` reproduces position, resolution, divisor and hold policy,
from any stored record, whatever bytes encode the flags and whichever way round the position lies.
-/
def Obligations.SaveThenLoadRoundTrip : Prop :=
  ∀ (w : BitVec 26) (m : Memory), Memory.wf m = true →
    loadInit (saveCells (recordCells w) m).1 = w ∧
    loadWrites (saveCells (recordCells w) m).1 = []

/-- R62, R209: `save()` writes changed bytes only, the stored record after it equals the record
computed from the live state, and a second `save()` writes no byte. -/
def Obligations.SaveWritesChangedBytesOnly : Prop :=
  ∀ (w : BitVec 26) (m : Memory), Memory.wf m = true →
    (∀ c ∈ (saveCells (recordCells w) m).2, c ∈ recordCells w ∧ Memory.read m c.1 ≠ c.2) ∧
    (∀ c ∈ recordCells w, Memory.read (saveCells (recordCells w) m).1 c.1 = c.2) ∧
    (saveCells (recordCells w) (saveCells (recordCells w) m).1).2 = []

/-- R208: `load()`: a matching marker adopts the record as it is and writes nothing; any other first
byte gives the defaults (position 0, the default resolution, divisor 2, hold policy false) and
leaves storage holding the sentinel and the defaults. -/
def Obligations.LoadAdoptsOrRepairs : Prop :=
  ∀ m : Memory, Memory.wf m = true →
    (Memory.read m 0 = Config.marker → loadMemory m = m ∧
      (loadInit m).extractLsb' 0 16 = posOfBytes (Memory.read m 1) (Memory.read m 2) ∧
      (loadInit m).getLsbD 24 = flagOfByte .resolution (Memory.read m 3) ∧
      (loadInit m).extractLsb' 16 8 = Memory.read m 4 ∧
      (loadInit m).getLsbD 25 = flagOfByte .hold (Memory.read m 5)) ∧
    (Memory.read m 0 ≠ Config.marker →
      (loadInit m).extractLsb' 0 16 = 0#16 ∧ (loadInit m).getLsbD 24 = Config.defaultFine ∧
      (loadInit m).extractLsb' 16 8 = 2#8 ∧ (loadInit m).getLsbD 25 = false ∧
      (∀ c ∈ recordCells defaultInit, Memory.read (loadMemory m) c.1 = c.2))

/-- R77, R83: the characters of a reply are hexadecimal digits, `0` to `9` and `A` to `F`, then the
terminator; read back as a payload they give the value (of two digits, its low byte). -/
def Obligations.HexadecimalRoundTrip : Prop :=
  ∀ v : Word,
    (∃ c3 c2 c1 c0, renderReply ⟨.four, v⟩ = [c3, c2, c1, c0, endByte] ∧
      payloadData 4 [c3, c2, c1, c0] = some v) ∧
    (∃ c1 c0, renderReply ⟨.two, v⟩ = [c1, c0, endByte] ∧
      payloadData 2 [c1, c0] = some ((v.extractLsb' 0 8).setWidth 16)) ∧
    (∀ d : BitVec 4, hexValue (hexChar d) = some d ∧
      (0x30#8 ≤ hexChar d ∧ hexChar d ≤ 0x39#8 ∨ 0x41#8 ≤ hexChar d ∧ hexChar d ≤ 0x46#8))

/-- R81, R203, R204: a framed message of at most eight content bytes, none of them a start byte or a
terminator, reaches the dispatcher with its framing stripped. -/
def Obligations.FramedMessageIsDispatched : Prop :=
  ∀ (content : List Byte) (s : State), s.rx = .idle → content.length ≤ bufferCapacity →
    (∀ b ∈ content, b ≠ startByte ∧ b ≠ endByte) →
    performAll ((startByte :: content ++ [endByte]).map Input.serialByte) s =
      envDispatch content
        { s with rx := .idle, draws := s.draws + content.length + 2, out := Output.idle }

/-- R82, R204, R205, in ASCII codes (PRESUMED, log 25): the serial forms the source shows, at the
dispatcher: `SN` and `SP` with four hexadecimal digits, `FG`, `GP`, `GV`, `GT`, `FQ` without
payload. -/
def Obligations.KnownSerialCommands : Prop :=
  ∀ (n : Nat) (v : Word) (h3 h2 h1 h0 : Byte), renderReply ⟨.four, v⟩ = [h3, h2, h1, h0, endByte] →
    dispatchMessage n [0x53, 0x4E, h3, h2, h1, h0] = some (.setTarget, 0x04#8 ++ v) ∧
    dispatchMessage n [0x53, 0x50, h3, h2, h1, h0] = some (.setPosition, 0x02#8 ++ v) ∧
    dispatchMessage n [0x46, 0x47] = some (.go, 0x050000) ∧
    dispatchMessage n [0x47, 0x50] = some (.getPosition, 0x010000) ∧
    dispatchMessage n [0x47, 0x56] = some (.getVersion, 0x0A0000) ∧
    dispatchMessage n [0x47, 0x54] = some (.getTemp, 0x0E0000) ∧
    dispatchMessage n [0x46, 0x51] = some (.stop, 0x000000)

/-- R204, R205, R207: a dispatched command runs as the event `CMD`; what is transmitted is the
characters of its reply, or nothing; and unless it is a set command rejected while moving, the time
is noted. -/
def Obligations.DispatchedCommandRuns : Prop :=
  ∀ (content : List Byte) (s : State) (op : Op) (w : BitVec 24),
    dispatchMessage s.draws content = some (op, w) →
    ∃ t u, exec (.cmd w) { s with draws := s.draws + 1 } = .next t ∧
      envDispatch content s = .next u ∧ (∀ r : Register, SameRegister r t u) ∧
      (∀ r, t.out.reply = some r → u.out.tx = renderReply r) ∧
      (t.out.reply = none → u.out.tx = []) ∧
      ((needsIdle op = false ∨ s.moving = false) → u.lastCommand = s.now)

/-- R207, R235: the disconnect check delivers `FORCE_DISABLE` exactly when more than
`DISCONNECT_TIMEOUT` has gone by since the last command. (That it does nothing at exactly the
timeout, and the clock it reads, are the model's choice, log 16.) -/
def Obligations.DisconnectCheckForcesDisable : Prop :=
  ∀ s : State,
    (s.lastCommand + Config.disconnectTimeout < s.now →
      perform .checkDisconnect s = exec .forceDisable s) ∧
    (s.now ≤ s.lastCommand + Config.disconnectTimeout →
      perform .checkDisconnect s = .next { s with out := Output.idle })

/-- R200, R209, R210: servicing a persist request takes the snapshot and clears the request; when
the `save()` has run, storage holds the registers of the moment of the take, and start-up adopts
them, whatever the block did in between. -/
def Obligations.ServicedRequestSurvivesPowerUp : Prop :=
  ∀ s t u v r : State, s.preq = true → s.saving = none → Memory.wf s.nv = true →
    perform .service s = .next t → u.nv = t.nv → u.saving = t.saving →
    perform .save u = .next v → perform .powerUp v = .next r →
      t.preq = false ∧ r.pos = s.pos ∧ r.fine = s.fine ∧ r.sdiv = s.sdiv ∧ r.hold = s.hold

/-- U11 (93_implementation_defined.md): power lost during a `save()`: each byte of the record that
start-up then reads is the old or the new one, and any mixture of the two is possible; with no
`save()` in progress storage is as it was. (That the start-up itself is not torn is the model's
choice, log 26.) -/
def Obligations.PowerLossMixesOldAndNewBytes : Prop :=
  ∀ (s : State) (written : BitVec 6), Memory.wf s.nv = true →
    ∃ m, perform (.powerLoss written) s = perform .powerUp { s with nv := m } ∧
      Memory.wf m = true ∧
      (∀ w, s.saving = some w → ∀ c ∈ recordCells w,
        Memory.read m c.1 = if written.getLsbD c.1 then c.2 else Memory.read s.nv c.1) ∧
      (s.saving = none → m = s.nv)
end

