-- ==== Sys2Proof/Laws/Decode.lean ====
section
/-! SUPPORT. The laws of the decoder's pieces: the fields of a command word, and what a mask over the
operation code sees of it. -/

namespace Sys2Proof

@[simp] theorem opField_commandWord (op : Byte) (d : Word) : opField (commandWord op d) = op :=
  BitVec.extractLsb'_append_eq_left

@[simp] theorem dataField_commandWord (op : Byte) (d : Word) : dataField (commandWord op d) = d :=
  BitVec.extractLsb'_append_eq_right

@[simp] theorem commandWord_fields (w : BitVec 24) : commandWord (opField w) (dataField w) = w := by
  unfold opField dataField commandWord
  rw [BitVec.extractLsb'_append_extractLsb'_eq_extractLsb' (by rfl)]
  simp

/-- A mask whose low 16 bits are clear sees the operation code alone. -/
theorem commandWord_and_mask (op m : Byte) (d : Word) :
    (commandWord op d).toNat &&& (m.toNat <<< 16) = (op.toNat &&& m.toNat) <<< 16 := by
  unfold commandWord
  rw [BitVec.toNat_append]
  apply Nat.eq_of_testBit_eq
  intro i
  simp only [Nat.testBit_and, Nat.testBit_or, Nat.testBit_shiftLeft]
  by_cases h : 16 ≤ i
  · have hd : d.toNat.testBit i = false :=
      Nat.testBit_lt_two_pow (lt_of_lt_of_le d.isLt (Nat.pow_le_pow_right (by decide) h))
    simp [h, hd]
  · simp [h]

end Sys2Proof
end

