-- ==== Sys2Proof/Laws/State.lean ====
section
/-! SUPPORT. What each shared update of the state leaves in each field: the lemmas proofs rewrite with
instead of unfolding an update. -/

namespace Sys2Proof.Machine

section begin

variable (s : State)

@[simp] theorem State.begin_pos : s.begin.pos = s.pos := rfl
@[simp] theorem State.begin_tgt : s.begin.tgt = s.tgt := rfl
@[simp] theorem State.begin_moving : s.begin.moving = s.moving := rfl
@[simp] theorem State.begin_fine : s.begin.fine = s.fine := rfl
@[simp] theorem State.begin_sdiv : s.begin.sdiv = s.sdiv := rfl
@[simp] theorem State.begin_hold : s.begin.hold = s.hold := rfl
@[simp] theorem State.begin_drven : s.begin.drven = s.drven := rfl
@[simp] theorem State.begin_preq : s.begin.preq = s.preq := rfl
@[simp] theorem State.begin_divcnt : s.begin.divcnt = s.divcnt := rfl
@[simp] theorem State.begin_disreq : s.begin.disreq = s.disreq := rfl
@[simp] theorem State.begin_discnt : s.begin.discnt = s.discnt := rfl
@[simp] theorem State.begin_dir : s.begin.dir = s.dir := rfl
@[simp] theorem State.begin_out : s.begin.out = Output.idle := rfl
@[simp] theorem State.begin_draws : s.begin.draws = s.draws := rfl
@[simp] theorem State.begin_nv : s.begin.nv = s.nv := rfl
@[simp] theorem State.begin_saving : s.begin.saving = s.saving := rfl
@[simp] theorem State.begin_rx : s.begin.rx = s.rx := rfl
@[simp] theorem State.begin_lastCommand : s.begin.lastCommand = s.lastCommand := rfl
@[simp] theorem State.begin_now : s.begin.now = s.now := rfl
@[simp] theorem State.begin_inputs : s.begin.inputs = s.inputs := rfl

end begin

section arm

variable (s : State)

@[simp] theorem arm_pos : (arm s).pos = s.pos := rfl
@[simp] theorem arm_tgt : (arm s).tgt = s.tgt := rfl
@[simp] theorem arm_moving : (arm s).moving = s.moving := rfl
@[simp] theorem arm_fine : (arm s).fine = s.fine := rfl
@[simp] theorem arm_sdiv : (arm s).sdiv = s.sdiv := rfl
@[simp] theorem arm_hold : (arm s).hold = s.hold := rfl
@[simp] theorem arm_drven : (arm s).drven = s.drven := rfl
@[simp] theorem arm_preq : (arm s).preq = s.preq := rfl
@[simp] theorem arm_divcnt : (arm s).divcnt = s.divcnt := rfl
@[simp] theorem arm_disreq : (arm s).disreq = true := rfl
@[simp] theorem arm_discnt : (arm s).discnt = Config.disableDelayTicks := rfl
@[simp] theorem arm_dir : (arm s).dir = s.dir := rfl
@[simp] theorem arm_out : (arm s).out = s.out := rfl
@[simp] theorem arm_draws : (arm s).draws = s.draws := rfl
@[simp] theorem arm_nv : (arm s).nv = s.nv := rfl
@[simp] theorem arm_saving : (arm s).saving = s.saving := rfl
@[simp] theorem arm_rx : (arm s).rx = s.rx := rfl
@[simp] theorem arm_lastCommand : (arm s).lastCommand = s.lastCommand := rfl
@[simp] theorem arm_now : (arm s).now = s.now := rfl
@[simp] theorem arm_inputs : (arm s).inputs = s.inputs := rfl

end arm

section drvEnable

variable (s : State)

@[simp] theorem drvEnable_pos : (drvEnable s).pos = s.pos := rfl
@[simp] theorem drvEnable_tgt : (drvEnable s).tgt = s.tgt := rfl
@[simp] theorem drvEnable_moving : (drvEnable s).moving = s.moving := rfl
@[simp] theorem drvEnable_fine : (drvEnable s).fine = s.fine := rfl
@[simp] theorem drvEnable_sdiv : (drvEnable s).sdiv = s.sdiv := rfl
@[simp] theorem drvEnable_hold : (drvEnable s).hold = s.hold := rfl
@[simp] theorem drvEnable_drven : (drvEnable s).drven = true := rfl
@[simp] theorem drvEnable_preq : (drvEnable s).preq = s.preq := rfl
@[simp] theorem drvEnable_divcnt : (drvEnable s).divcnt = s.divcnt := rfl
@[simp] theorem drvEnable_disreq : (drvEnable s).disreq = s.disreq := rfl
@[simp] theorem drvEnable_discnt : (drvEnable s).discnt = s.discnt := rfl
@[simp] theorem drvEnable_dir : (drvEnable s).dir = s.dir := rfl
@[simp] theorem drvEnable_out : (drvEnable s).out = s.out := rfl
@[simp] theorem drvEnable_draws : (drvEnable s).draws = s.draws := rfl
@[simp] theorem drvEnable_nv : (drvEnable s).nv = s.nv := rfl
@[simp] theorem drvEnable_saving : (drvEnable s).saving = s.saving := rfl
@[simp] theorem drvEnable_rx : (drvEnable s).rx = s.rx := rfl
@[simp] theorem drvEnable_lastCommand : (drvEnable s).lastCommand = s.lastCommand := rfl
@[simp] theorem drvEnable_now : (drvEnable s).now = s.now := rfl
@[simp] theorem drvEnable_inputs : (drvEnable s).inputs = s.inputs := rfl

end drvEnable

section drvDisable

variable (s : State)

@[simp] theorem drvDisable_pos : (drvDisable s).pos = s.pos := rfl
@[simp] theorem drvDisable_tgt : (drvDisable s).tgt = s.tgt := rfl
@[simp] theorem drvDisable_moving : (drvDisable s).moving = s.moving := rfl
@[simp] theorem drvDisable_fine : (drvDisable s).fine = s.fine := rfl
@[simp] theorem drvDisable_sdiv : (drvDisable s).sdiv = s.sdiv := rfl
@[simp] theorem drvDisable_hold : (drvDisable s).hold = s.hold := rfl
@[simp] theorem drvDisable_drven : (drvDisable s).drven = false := rfl
@[simp] theorem drvDisable_preq : (drvDisable s).preq = s.preq := rfl
@[simp] theorem drvDisable_divcnt : (drvDisable s).divcnt = s.divcnt := rfl
@[simp] theorem drvDisable_disreq : (drvDisable s).disreq = s.disreq := rfl
@[simp] theorem drvDisable_discnt : (drvDisable s).discnt = s.discnt := rfl
@[simp] theorem drvDisable_dir : (drvDisable s).dir = s.dir := rfl
@[simp] theorem drvDisable_out : (drvDisable s).out = s.out := rfl
@[simp] theorem drvDisable_draws : (drvDisable s).draws = s.draws := rfl
@[simp] theorem drvDisable_nv : (drvDisable s).nv = s.nv := rfl
@[simp] theorem drvDisable_saving : (drvDisable s).saving = s.saving := rfl
@[simp] theorem drvDisable_rx : (drvDisable s).rx = s.rx := rfl
@[simp] theorem drvDisable_lastCommand : (drvDisable s).lastCommand = s.lastCommand := rfl
@[simp] theorem drvDisable_now : (drvDisable s).now = s.now := rfl
@[simp] theorem drvDisable_inputs : (drvDisable s).inputs = s.inputs := rfl

end drvDisable

section emitStep

variable (d : Dir) (s : State)

@[simp] theorem emitStep_pos : (emitStep d s).pos = s.pos := rfl
@[simp] theorem emitStep_tgt : (emitStep d s).tgt = s.tgt := rfl
@[simp] theorem emitStep_moving : (emitStep d s).moving = s.moving := rfl
@[simp] theorem emitStep_fine : (emitStep d s).fine = s.fine := rfl
@[simp] theorem emitStep_sdiv : (emitStep d s).sdiv = s.sdiv := rfl
@[simp] theorem emitStep_hold : (emitStep d s).hold = s.hold := rfl
@[simp] theorem emitStep_drven : (emitStep d s).drven = s.drven := rfl
@[simp] theorem emitStep_preq : (emitStep d s).preq = s.preq := rfl
@[simp] theorem emitStep_divcnt : (emitStep d s).divcnt = s.divcnt := rfl
@[simp] theorem emitStep_disreq : (emitStep d s).disreq = s.disreq := rfl
@[simp] theorem emitStep_discnt : (emitStep d s).discnt = s.discnt := rfl
@[simp] theorem emitStep_dir : (emitStep d s).dir = s.dir := rfl
@[simp] theorem emitStep_out :
    (emitStep d s).out = { s.out with steps := s.out.steps ++ [d] } := rfl
@[simp] theorem emitStep_draws : (emitStep d s).draws = s.draws := rfl
@[simp] theorem emitStep_nv : (emitStep d s).nv = s.nv := rfl
@[simp] theorem emitStep_saving : (emitStep d s).saving = s.saving := rfl
@[simp] theorem emitStep_rx : (emitStep d s).rx = s.rx := rfl
@[simp] theorem emitStep_lastCommand : (emitStep d s).lastCommand = s.lastCommand := rfl
@[simp] theorem emitStep_now : (emitStep d s).now = s.now := rfl
@[simp] theorem emitStep_inputs : (emitStep d s).inputs = s.inputs := rfl

end emitStep

section drvStep

variable (d : Dir) (s : State)

@[simp] theorem drvStep_pos : (drvStep d s).pos = s.pos := rfl
@[simp] theorem drvStep_tgt : (drvStep d s).tgt = s.tgt := rfl
@[simp] theorem drvStep_moving : (drvStep d s).moving = s.moving := rfl
@[simp] theorem drvStep_fine : (drvStep d s).fine = s.fine := rfl
@[simp] theorem drvStep_sdiv : (drvStep d s).sdiv = s.sdiv := rfl
@[simp] theorem drvStep_hold : (drvStep d s).hold = s.hold := rfl
@[simp] theorem drvStep_drven : (drvStep d s).drven = s.drven := rfl
@[simp] theorem drvStep_preq : (drvStep d s).preq = s.preq := rfl
@[simp] theorem drvStep_divcnt : (drvStep d s).divcnt = s.divcnt := rfl
@[simp] theorem drvStep_disreq : (drvStep d s).disreq = s.disreq := rfl
@[simp] theorem drvStep_discnt : (drvStep d s).discnt = s.discnt := rfl
@[simp] theorem drvStep_dir : (drvStep d s).dir = d := rfl
@[simp] theorem drvStep_out :
    (drvStep d s).out = { s.out with steps := s.out.steps ++ [d] } := rfl
@[simp] theorem drvStep_draws : (drvStep d s).draws = s.draws := rfl
@[simp] theorem drvStep_nv : (drvStep d s).nv = s.nv := rfl
@[simp] theorem drvStep_saving : (drvStep d s).saving = s.saving := rfl
@[simp] theorem drvStep_rx : (drvStep d s).rx = s.rx := rfl
@[simp] theorem drvStep_lastCommand : (drvStep d s).lastCommand = s.lastCommand := rfl
@[simp] theorem drvStep_now : (drvStep d s).now = s.now := rfl
@[simp] theorem drvStep_inputs : (drvStep d s).inputs = s.inputs := rfl

end drvStep

section reply

variable (n : Digits) (v : Word) (s : State)

@[simp] theorem reply_pos : (reply n v s).pos = s.pos := rfl
@[simp] theorem reply_tgt : (reply n v s).tgt = s.tgt := rfl
@[simp] theorem reply_moving : (reply n v s).moving = s.moving := rfl
@[simp] theorem reply_fine : (reply n v s).fine = s.fine := rfl
@[simp] theorem reply_sdiv : (reply n v s).sdiv = s.sdiv := rfl
@[simp] theorem reply_hold : (reply n v s).hold = s.hold := rfl
@[simp] theorem reply_drven : (reply n v s).drven = s.drven := rfl
@[simp] theorem reply_preq : (reply n v s).preq = s.preq := rfl
@[simp] theorem reply_divcnt : (reply n v s).divcnt = s.divcnt := rfl
@[simp] theorem reply_disreq : (reply n v s).disreq = s.disreq := rfl
@[simp] theorem reply_discnt : (reply n v s).discnt = s.discnt := rfl
@[simp] theorem reply_dir : (reply n v s).dir = s.dir := rfl
@[simp] theorem reply_out :
    (reply n v s).out = { s.out with reply := some ⟨n, v⟩ } := rfl
@[simp] theorem reply_draws : (reply n v s).draws = s.draws := rfl
@[simp] theorem reply_nv : (reply n v s).nv = s.nv := rfl
@[simp] theorem reply_saving : (reply n v s).saving = s.saving := rfl
@[simp] theorem reply_rx : (reply n v s).rx = s.rx := rfl
@[simp] theorem reply_lastCommand : (reply n v s).lastCommand = s.lastCommand := rfl
@[simp] theorem reply_now : (reply n v s).now = s.now := rfl
@[simp] theorem reply_inputs : (reply n v s).inputs = s.inputs := rfl

end reply

section requestPersist

variable (s : State)

@[simp] theorem requestPersist_pos : (requestPersist s).pos = s.pos := rfl
@[simp] theorem requestPersist_tgt : (requestPersist s).tgt = s.tgt := rfl
@[simp] theorem requestPersist_moving : (requestPersist s).moving = s.moving := rfl
@[simp] theorem requestPersist_fine : (requestPersist s).fine = s.fine := rfl
@[simp] theorem requestPersist_sdiv : (requestPersist s).sdiv = s.sdiv := rfl
@[simp] theorem requestPersist_hold : (requestPersist s).hold = s.hold := rfl
@[simp] theorem requestPersist_drven : (requestPersist s).drven = s.drven := rfl
@[simp] theorem requestPersist_preq : (requestPersist s).preq = true := rfl
@[simp] theorem requestPersist_divcnt : (requestPersist s).divcnt = s.divcnt := rfl
@[simp] theorem requestPersist_disreq : (requestPersist s).disreq = s.disreq := rfl
@[simp] theorem requestPersist_discnt : (requestPersist s).discnt = s.discnt := rfl
@[simp] theorem requestPersist_dir : (requestPersist s).dir = s.dir := rfl
@[simp] theorem requestPersist_out : (requestPersist s).out = s.out := rfl
@[simp] theorem requestPersist_draws : (requestPersist s).draws = s.draws := rfl
@[simp] theorem requestPersist_nv : (requestPersist s).nv = s.nv := rfl
@[simp] theorem requestPersist_saving : (requestPersist s).saving = s.saving := rfl
@[simp] theorem requestPersist_rx : (requestPersist s).rx = s.rx := rfl
@[simp] theorem requestPersist_lastCommand : (requestPersist s).lastCommand = s.lastCommand := rfl
@[simp] theorem requestPersist_now : (requestPersist s).now = s.now := rfl
@[simp] theorem requestPersist_inputs : (requestPersist s).inputs = s.inputs := rfl

end requestPersist

section showPattern

variable (l : Level) (s : State)

@[simp] theorem showPattern_pos : (showPattern l s).pos = s.pos := rfl
@[simp] theorem showPattern_tgt : (showPattern l s).tgt = s.tgt := rfl
@[simp] theorem showPattern_moving : (showPattern l s).moving = s.moving := rfl
@[simp] theorem showPattern_fine : (showPattern l s).fine = s.fine := rfl
@[simp] theorem showPattern_sdiv : (showPattern l s).sdiv = s.sdiv := rfl
@[simp] theorem showPattern_hold : (showPattern l s).hold = s.hold := rfl
@[simp] theorem showPattern_drven : (showPattern l s).drven = s.drven := rfl
@[simp] theorem showPattern_preq : (showPattern l s).preq = s.preq := rfl
@[simp] theorem showPattern_divcnt : (showPattern l s).divcnt = s.divcnt := rfl
@[simp] theorem showPattern_disreq : (showPattern l s).disreq = s.disreq := rfl
@[simp] theorem showPattern_discnt : (showPattern l s).discnt = s.discnt := rfl
@[simp] theorem showPattern_dir : (showPattern l s).dir = s.dir := rfl
@[simp] theorem showPattern_out :
    (showPattern l s).out = { s.out with pattern := some (msenc l) } := rfl
@[simp] theorem showPattern_draws : (showPattern l s).draws = s.draws := rfl
@[simp] theorem showPattern_nv : (showPattern l s).nv = s.nv := rfl
@[simp] theorem showPattern_saving : (showPattern l s).saving = s.saving := rfl
@[simp] theorem showPattern_rx : (showPattern l s).rx = s.rx := rfl
@[simp] theorem showPattern_lastCommand : (showPattern l s).lastCommand = s.lastCommand := rfl
@[simp] theorem showPattern_now : (showPattern l s).now = s.now := rfl
@[simp] theorem showPattern_inputs : (showPattern l s).inputs = s.inputs := rfl

end showPattern

end Sys2Proof.Machine
end

