-- ==== Sys2Proof/Laws/Ops.lean ====
section
/-! SUPPORT. What each shared operation can do, said once. -/

namespace Sys2Proof.Machine

@[simp] theorem andThen_next (s : State) (f : State → Host.Outcome State Fault Refusal) :
    andThen (.next s) f = f s := rfl

/-- A sequence that answers a next state has one after its first part. -/
theorem andThen_eq_next {o : Host.Outcome State Fault Refusal}
    {f : State → Host.Outcome State Fault Refusal} {t : State} (h : andThen o f = .next t) :
    ∃ s, o = .next s ∧ f s = .next t := by
  cases o with
  | next s => exact ⟨s, rfl, h⟩
  | fault r => exact nomatch r
  | refused r => exact absurd h (by simp [andThen])

/-- A guarded command's two outcomes (R140). -/
theorem whenIdle_cases {s t : State} {effect : State → State} (h : whenIdle s effect = .next t) :
    (s.moving = true ∧ t = s.begin) ∨ (s.moving = false ∧ t = effect s.begin) := by
  unfold whenIdle at h
  cases hm : s.moving <;> simp [hm] at h
  · exact .inr ⟨rfl, h.symm⟩
  · exact .inl ⟨rfl, h.symm⟩

theorem whenIdle_moving {s : State} (effect : State → State) (h : s.moving = true) :
    whenIdle s effect = .next s.begin := by simp [whenIdle, h]

theorem whenIdle_idle {s : State} (effect : State → State) (h : s.moving = false) :
    whenIdle s effect = .next (effect s.begin) := by simp [whenIdle, h]

@[simp] theorem Output.merge_idle (a : Output) : a.merge Output.idle = a := by
  cases a
  simp [Output.merge, Output.idle]

@[simp] theorem Output.idle_merge (a : Output) : Output.idle.merge a = a := by
  cases a
  simp [Output.merge, Output.idle]

/-- The delay is at least one tick (R9). -/
theorem one_le_disableDelayTicks : 1 ≤ Config.disableDelayTicks := by
  unfold Config.disableDelayTicks
  omega

end Sys2Proof.Machine
end

