-- ==== Sys2Proof/Laws/Environment.lean ====
section
/-! SUPPORT. What the environment's shared operations can do, said once. -/

namespace Sys2Proof.Machine

/-- The whole effect of noting a command's time (R207). -/
theorem noteCommand_eq (b : Bool) (s : State) :
    noteCommand b s = { s with lastCommand := if b then s.now else s.lastCommand } := by
  cases b <;> rfl

/-- The buffer of a clamped receiver keeps its capacity (R203). -/
theorem clampRx_length {r : Rx} {content : List Byte} (h : clampRx r = .collecting content) :
    content.length ≤ bufferCapacity := by
  cases r with
  | idle => cases h
  | discarding => cases h
  | collecting c =>
    cases h
    exact List.length_take_le _ _

/-- A byte keeps the receive buffer within its capacity (R203). -/
theorem rxByte_length {n : Nat} {r : Rx} {b : Byte} {content : List Byte}
    (h : (rxByte n r b).1 = .collecting content) : content.length ≤ bufferCapacity := by
  cases r with
  | idle =>
    simp only [rxByte] at h
    split at h
    · cases h
      exact Nat.zero_le _
    · exact clampRx_length h
  | discarding =>
    simp only [rxByte] at h
    split at h
    · cases h
    · split at h
      · exact clampRx_length h
      · cases h
  | collecting c =>
    simp only [rxByte] at h
    split at h
    · cases h
    · split at h
      · exact clampRx_length h
      · split at h
        · rename_i hc
          cases h
          simpa using hc
        · split at h <;> cases h

/-- A byte that overflows the buffer completes no message (R203). -/
theorem rxByte_overflows {n : Nat} {r : Rx} {b : Byte} (h : overflows r b = true) :
    (rxByte n r b).2 = none := by
  cases r with
  | idle => cases h
  | discarding => cases h
  | collecting c =>
    simp only [overflows, Bool.and_eq_true, decide_eq_true_eq] at h
    obtain ⟨⟨h1, h2⟩, h3⟩ := h
    simp only [rxByte, h1, h2, if_false, Nat.not_lt.2 h3]
    split <;> rfl

/-- The operation code of an operation selects its row (R74). -/
theorem opOf_opCode (op : Op) : opOf (opCode op) = op := by
  cases op <;> rfl

/-- The code of every operation code that a named row has (R74). -/
theorem opCode_opOf {op : Byte} (h : opOf op ≠ .unrecognized) : opCode (opOf op) = op := by
  revert op
  decide

end Sys2Proof.Machine
end

