-- ==== Sys2Proof/Laws/Memory.lean ====
section
/-! SUPPORT. The laws of the record space: read after write, and that a write keeps the canonical
form. -/

namespace Sys2Proof.Machine

theorem Memory.risesFrom_mono {lo lo' : Nat} (h : lo' ≤ lo) :
    ∀ {m : Memory}, Memory.risesFrom lo m = true → Memory.risesFrom lo' m = true
  | [], _ => rfl
  | (k, _) :: rest, hm => by
    simp only [Memory.risesFrom, Bool.and_eq_true, decide_eq_true_eq] at hm ⊢
    exact ⟨by omega, hm.2⟩

/-- An offset below all listed ones is not listed. -/
theorem Memory.read_of_risesFrom {a lo : Nat} (h : a < lo) :
    ∀ {m : Memory}, Memory.risesFrom lo m = true → Memory.read m a = Memory.blank
  | [], _ => rfl
  | (k, _) :: rest, hm => by
    simp only [Memory.risesFrom, Bool.and_eq_true, decide_eq_true_eq] at hm
    have hk : ¬k = a := by omega
    simp only [Memory.read, hk, if_false]
    exact Memory.read_of_risesFrom (lo := k + 1) (by omega) hm.2

theorem Memory.read_insert_same (m : Memory) (a : Nat) (b : Byte) :
    Memory.read (Memory.insert m a b) a = b := by
  induction m with
  | nil => simp [Memory.insert, Memory.read]
  | cons c rest ih =>
    obtain ⟨k, x⟩ := c
    simp only [Memory.insert]
    split
    · simp [Memory.read]
    · split
      · simp [Memory.read]
      · rename_i h1 h2
        have : ¬k = a := fun h => h2 h.symm
        simpa [Memory.read, this] using ih

theorem Memory.read_insert_other (m : Memory) {a a' : Nat} (b : Byte) (h : a' ≠ a) :
    Memory.read (Memory.insert m a b) a' = Memory.read m a' := by
  have h' : ¬a = a' := fun e => h e.symm
  induction m with
  | nil => simp [Memory.insert, Memory.read, h']
  | cons c rest ih =>
    obtain ⟨k, x⟩ := c
    simp only [Memory.insert]
    split
    · simp [Memory.read, h']
    · split
      · rename_i h2
        subst h2
        simp [Memory.read, h']
      · simp [Memory.read, ih]

theorem Memory.read_erase_same {a lo : Nat} :
    ∀ {m : Memory}, Memory.risesFrom lo m = true → Memory.read (Memory.erase m a) a = Memory.blank
  | [], _ => rfl
  | (k, _) :: rest, hm => by
    simp only [Memory.risesFrom, Bool.and_eq_true, decide_eq_true_eq] at hm
    simp only [Memory.erase]
    split
    · rename_i h
      exact Memory.read_of_risesFrom (lo := k + 1) (by omega) hm.2
    · rename_i h
      simpa [Memory.read, h] using Memory.read_erase_same hm.2

theorem Memory.read_erase_other (m : Memory) {a a' : Nat} (h : a' ≠ a) :
    Memory.read (Memory.erase m a) a' = Memory.read m a' := by
  have h' : ¬a = a' := fun e => h e.symm
  induction m with
  | nil => rfl
  | cons c rest ih =>
    obtain ⟨k, x⟩ := c
    simp only [Memory.erase]
    split
    · rename_i h2
      subst h2
      simp [Memory.read, h']
    · simp [Memory.read, ih]

theorem Memory.risesFrom_of_wf {m : Memory} (h : Memory.wf m = true) :
    Memory.risesFrom 0 m = true := by
  simp only [Memory.wf, Bool.and_eq_true] at h
  exact h.1

/-- Reading the byte just written. -/
theorem Memory.read_write_same {m : Memory} (h : Memory.wf m = true) (a : Nat) (b : Byte) :
    Memory.read (Memory.write m a b) a = b := by
  unfold Memory.write
  split
  · rename_i hb
    rw [hb]
    exact Memory.read_erase_same (Memory.risesFrom_of_wf h)
  · exact Memory.read_insert_same m a b

/-- Reading any other byte. -/
theorem Memory.read_write_other (m : Memory) {a a' : Nat} (b : Byte) (h : a' ≠ a) :
    Memory.read (Memory.write m a b) a' = Memory.read m a' := by
  unfold Memory.write
  split
  · exact Memory.read_erase_other m h
  · exact Memory.read_insert_other m b h

theorem Memory.risesFrom_erase {lo : Nat} (a : Nat) :
    ∀ {m : Memory}, Memory.risesFrom lo m = true → Memory.risesFrom lo (Memory.erase m a) = true
  | [], _ => rfl
  | (k, _) :: rest, hm => by
    simp only [Memory.risesFrom, Bool.and_eq_true, decide_eq_true_eq] at hm
    simp only [Memory.erase]
    split
    · exact Memory.risesFrom_mono (by omega) hm.2
    · simp only [Memory.risesFrom, Bool.and_eq_true, decide_eq_true_eq]
      exact ⟨hm.1, Memory.risesFrom_erase a hm.2⟩

theorem Memory.risesFrom_insert {lo a : Nat} (b : Byte) (ha : lo ≤ a) :
    ∀ {m : Memory}, Memory.risesFrom lo m = true → Memory.risesFrom lo (Memory.insert m a b) = true
  | [], _ => by simp [Memory.insert, Memory.risesFrom, ha]
  | (k, _) :: rest, hm => by
    simp only [Memory.risesFrom, Bool.and_eq_true, decide_eq_true_eq] at hm
    simp only [Memory.insert]
    split
    · simp only [Memory.risesFrom, Bool.and_eq_true, decide_eq_true_eq]
      exact ⟨ha, by omega, hm.2⟩
    · split
      · rename_i h
        subst h
        simp only [Memory.risesFrom, Bool.and_eq_true, decide_eq_true_eq]
        exact ⟨ha, hm.2⟩
      · simp only [Memory.risesFrom, Bool.and_eq_true, decide_eq_true_eq]
        exact ⟨hm.1, Memory.risesFrom_insert b (by omega) hm.2⟩

theorem Memory.mem_erase {m : Memory} {a : Nat} {c : Host.Cell} (h : c ∈ Memory.erase m a) :
    c ∈ m := by
  induction m with
  | nil => exact h
  | cons x rest ih =>
    obtain ⟨k, y⟩ := x
    simp only [Memory.erase] at h
    split at h
    · exact List.mem_cons_of_mem _ h
    · rcases List.mem_cons.1 h with rfl | h
      · exact List.mem_cons_self
      · exact List.mem_cons_of_mem _ (ih h)

theorem Memory.mem_insert {m : Memory} {a : Nat} {b : Byte} {c : Host.Cell}
    (h : c ∈ Memory.insert m a b) : c = (a, b) ∨ c ∈ m := by
  induction m with
  | nil => simpa [Memory.insert] using h
  | cons x rest ih =>
    obtain ⟨k, y⟩ := x
    simp only [Memory.insert] at h
    split at h
    · exact List.mem_cons.1 h
    · split at h
      · rcases List.mem_cons.1 h with h | h
        · exact .inl h
        · exact .inr (List.mem_cons_of_mem _ h)
      · rcases List.mem_cons.1 h with rfl | h
        · exact .inr List.mem_cons_self
        · rcases ih h with h | h
          · exact .inl h
          · exact .inr (List.mem_cons_of_mem _ h)

/-- A write to an offset of the record keeps the canonical form. -/
theorem Memory.write_wf {m : Memory} {a : Nat} (b : Byte) (ha : a < 6) (h : Memory.wf m = true) :
    Memory.wf (Memory.write m a b) = true := by
  simp only [Memory.wf, Bool.and_eq_true, List.all_eq_true, decide_eq_true_eq] at h ⊢
  unfold Memory.write
  split
  · exact ⟨Memory.risesFrom_erase a h.1, fun c hc => h.2 c (Memory.mem_erase hc)⟩
  · rename_i hb
    refine ⟨Memory.risesFrom_insert b (Nat.zero_le a) h.1, fun c hc => ?_⟩
    rcases Memory.mem_insert hc with rfl | hc
    · exact ⟨ha, hb⟩
    · exact h.2 c hc

end Sys2Proof.Machine
end

