-- ==== Sys2Proof/Laws/PerInstr.lean ====
section
/-! SUPPORT. What holds of every instruction as syntax, one lemma per constructor. Family TableRow: a
well-formed instruction's encoding is a word of a row of spec/opcode_table.json that carries its
mnemonic, at the width the table gives that row. -/

namespace Sys2Proof.Laws.TableRow

/-- The encoding of `i` matches a row of the opcode table with the mnemonic and the width of `i`. -/
def Statement (i : Instr) : Prop :=
  i.wf = true →
    ∃ r ∈ opcodeTable,
      r.mnemonic = i.mnemonic ∧ r.width = (encode i).width ∧ (encode i).bits &&& r.mask = r.bits

/-- A command's encoding matches its row: a fact about its operation code alone. -/
theorem command_row {i : Instr} {op : Byte} {d : Word} (he : encode i = .cmd (commandWord op d))
    (m : Byte)
    (hr : ⟨i.mnemonic, 24, (op.toNat &&& m.toNat) <<< 16, m.toNat <<< 16⟩ ∈ opcodeTable) :
    Statement i := fun _ =>
  ⟨_, hr, rfl, by rw [he]; rfl, by rw [he]; exact commandWord_and_mask op m d⟩

theorem stop (d : Word) : Statement (.stop d) :=
  command_row (op := 0x00) (d := d) rfl 0xFF
    (show (⟨"STOP", 24, 0x0, 0xFF0000⟩ : TableRow) ∈ opcodeTable by decide)

theorem getPosition (d : Word) : Statement (.getPosition d) :=
  command_row (op := 0x01) (d := d) rfl 0xFF
    (show (⟨"GET_POSITION", 24, 0x10000, 0xFF0000⟩ : TableRow) ∈ opcodeTable by decide)

theorem setPosition (d : Word) : Statement (.setPosition d) :=
  command_row (op := 0x02) (d := d) rfl 0xFF
    (show (⟨"SET_POSITION", 24, 0x20000, 0xFF0000⟩ : TableRow) ∈ opcodeTable by decide)

theorem getTarget (d : Word) : Statement (.getTarget d) :=
  command_row (op := 0x03) (d := d) rfl 0xFF
    (show (⟨"GET_TARGET", 24, 0x30000, 0xFF0000⟩ : TableRow) ∈ opcodeTable by decide)

theorem setTarget (d : Word) : Statement (.setTarget d) :=
  command_row (op := 0x04) (d := d) rfl 0xFF
    (show (⟨"SET_TARGET", 24, 0x40000, 0xFF0000⟩ : TableRow) ∈ opcodeTable by decide)

theorem go (d : Word) : Statement (.go d) :=
  command_row (op := 0x05) (d := d) rfl 0xFF
    (show (⟨"GO", 24, 0x50000, 0xFF0000⟩ : TableRow) ∈ opcodeTable by decide)

theorem getHalf (d : Word) : Statement (.getHalf d) :=
  command_row (op := 0x06) (d := d) rfl 0xFF
    (show (⟨"GET_HALF", 24, 0x60000, 0xFF0000⟩ : TableRow) ∈ opcodeTable by decide)

theorem setFull (d : Word) : Statement (.setFull d) :=
  command_row (op := 0x07) (d := d) rfl 0xFF
    (show (⟨"SET_FULL", 24, 0x70000, 0xFF0000⟩ : TableRow) ∈ opcodeTable by decide)

theorem setHalf (d : Word) : Statement (.setHalf d) :=
  command_row (op := 0x08) (d := d) rfl 0xFF
    (show (⟨"SET_HALF", 24, 0x80000, 0xFF0000⟩ : TableRow) ∈ opcodeTable by decide)

theorem getMoving (d : Word) : Statement (.getMoving d) :=
  command_row (op := 0x09) (d := d) rfl 0xFF
    (show (⟨"GET_MOVING", 24, 0x90000, 0xFF0000⟩ : TableRow) ∈ opcodeTable by decide)

theorem getVersion (d : Word) : Statement (.getVersion d) :=
  command_row (op := 0x0A) (d := d) rfl 0xFF
    (show (⟨"GET_VERSION", 24, 0xA0000, 0xFF0000⟩ : TableRow) ∈ opcodeTable by decide)

theorem getBacklight (d : Word) : Statement (.getBacklight d) :=
  command_row (op := 0x0B) (d := d) rfl 0xFF
    (show (⟨"GET_BACKLIGHT", 24, 0xB0000, 0xFF0000⟩ : TableRow) ∈ opcodeTable by decide)

theorem getSdiv (d : Word) : Statement (.getSdiv d) :=
  command_row (op := 0x0C) (d := d) rfl 0xFF
    (show (⟨"GET_SDIV", 24, 0xC0000, 0xFF0000⟩ : TableRow) ∈ opcodeTable by decide)

theorem setSdiv (d : Word) : Statement (.setSdiv d) :=
  command_row (op := 0x0D) (d := d) rfl 0xFF
    (show (⟨"SET_SDIV", 24, 0xD0000, 0xFF0000⟩ : TableRow) ∈ opcodeTable by decide)

theorem getTemp (d : Word) : Statement (.getTemp d) :=
  command_row (op := 0x0E) (d := d) rfl 0xFF
    (show (⟨"GET_TEMP", 24, 0xE0000, 0xFF0000⟩ : TableRow) ∈ opcodeTable by decide)

theorem holdOn (d : Word) : Statement (.holdOn d) :=
  command_row (op := 0x0F) (d := d) rfl 0xFF
    (show (⟨"HOLD_ON", 24, 0xF0000, 0xFF0000⟩ : TableRow) ∈ opcodeTable by decide)

theorem holdOff (d : Word) : Statement (.holdOff d) :=
  command_row (op := 0x10) (d := d) rfl 0xFF
    (show (⟨"HOLD_OFF", 24, 0x100000, 0xFF0000⟩ : TableRow) ∈ opcodeTable by decide)

theorem unrecognized (op : Byte) (d : Word) : Statement (.unrecognized op d) := by
  intro h
  have hop : ∀ op : Byte, 0x11#8 ≤ op →
      ∃ m ∈ [0xFF#8, 0xFE#8, 0xFC#8, 0xF8#8, 0xE0#8, 0xC0#8, 0x80#8],
        (⟨"UNRECOGNIZED", 24, (op.toNat &&& m.toNat) <<< 16, m.toNat <<< 16⟩ : TableRow)
          ∈ unrecognizedRows := by decide
  obtain ⟨m, _, hm⟩ := hop op (by simpa [Instr.wf] using h)
  have hm' : (⟨"UNRECOGNIZED", 24, (op.toNat &&& m.toNat) <<< 16, m.toNat <<< 16⟩ : TableRow)
      ∈ opcodeTable := by simp [opcodeTable, hm]
  exact command_row (i := .unrecognized op d) (op := op) (d := d) rfl m hm' h

theorem tick : Statement .tick := fun _ =>
  ⟨⟨"TICK", 5, 1, 1⟩, by decide, rfl, rfl, (by decide : 1 &&& 1 = 1)⟩

theorem cmd (w : BitVec 24) : Statement (.cmd w) := fun _ =>
  ⟨⟨"CMD", 5, 2, 2⟩, by decide, rfl, rfl, (by decide : 2 &&& 2 = 2)⟩

theorem persistTake : Statement .persistTake := fun _ =>
  ⟨⟨"PERSIST_TAKE", 5, 4, 4⟩, by decide, rfl, rfl, (by decide : 4 &&& 4 = 4)⟩

theorem forceDisable : Statement .forceDisable := fun _ =>
  ⟨⟨"FORCE_DISABLE", 5, 8, 8⟩, by decide, rfl, rfl, (by decide : 8 &&& 8 = 8)⟩

theorem reset (init : BitVec 26) : Statement (.reset init) := fun _ =>
  ⟨⟨"RESET", 5, 16, 16⟩, by decide, rfl, rfl, (by decide : 16 &&& 16 = 16)⟩

theorem msenc1 : Statement .msenc1 := fun _ =>
  ⟨⟨"MSENC_1", 3, 0, 7⟩, by decide, rfl, rfl, (by decide : 0 &&& 7 = 0)⟩

theorem msenc2 : Statement .msenc2 := fun _ =>
  ⟨⟨"MSENC_2", 3, 1, 7⟩, by decide, rfl, rfl, (by decide : 1 &&& 7 = 1)⟩

theorem msenc4 : Statement .msenc4 := fun _ =>
  ⟨⟨"MSENC_4", 3, 2, 7⟩, by decide, rfl, rfl, (by decide : 2 &&& 7 = 2)⟩

theorem msenc8 : Statement .msenc8 := fun _ =>
  ⟨⟨"MSENC_8", 3, 3, 7⟩, by decide, rfl, rfl, (by decide : 3 &&& 7 = 3)⟩

theorem msenc16 : Statement .msenc16 := fun _ =>
  ⟨⟨"MSENC_16", 3, 4, 7⟩, by decide, rfl, rfl, (by decide : 4 &&& 7 = 4)⟩

theorem msenc32 : Statement .msenc32 := fun _ =>
  ⟨⟨"MSENC_32", 3, 7, 7⟩, by decide, rfl, rfl, (by decide : 7 &&& 7 = 7)⟩

end Sys2Proof.Laws.TableRow
end

