-- ==== Sys2Proof/Laws/Record.lean ====
section
/-! SUPPORT. The laws of the settings record: its fields decode to what was encoded, and `load()` and
`save()` keep storage canonical. -/

namespace Sys2Proof.Machine

theorem flagTrue_ne_flagFalse (f : RecordFlag) : Config.flagTrue f ≠ Config.flagFalse f := by
  intro h
  have h0 : BitVec.ofNat 8 ((Config.flagGap f).val + 1) = 0#8 := by
    have h' : Config.flagFalse f + BitVec.ofNat 8 ((Config.flagGap f).val + 1)
        = Config.flagFalse f + 0#8 := by
      rw [BitVec.add_zero]
      exact h
    exact (BitVec.add_right_inj _).1 h'
  have hv := congrArg BitVec.toNat h0
  have hlt := (Config.flagGap f).isLt
  simp only [BitVec.toNat_ofNat] at hv
  omega

@[simp] theorem persistedPos_pack (h f : Bool) (d : Byte) (p : Word) :
    persistedPos (packPersisted h f d p) = p :=
  BitVec.extractLsb'_append_eq_right

@[simp] theorem persistedSdiv_pack (h f : Bool) (d : Byte) (p : Word) :
    persistedSdiv (packPersisted h f d p) = d := by
  unfold persistedSdiv packPersisted
  ext i hi
  rw [BitVec.getElem_extractLsb', BitVec.getLsbD_append, BitVec.getLsbD_append]
  simp [hi, BitVec.getLsbD_eq_getElem]

@[simp] theorem persistedFine_pack (h f : Bool) (d : Byte) (p : Word) :
    persistedFine (packPersisted h f d p) = f := by
  unfold persistedFine packPersisted
  rw [BitVec.getLsbD_append, BitVec.getLsbD_append, BitVec.getLsbD_append]
  simp

@[simp] theorem persistedHold_pack (h f : Bool) (d : Byte) (p : Word) :
    persistedHold (packPersisted h f d p) = h := by
  unfold persistedHold packPersisted
  rw [BitVec.getLsbD_append, BitVec.getLsbD_append, BitVec.getLsbD_append]
  simp

/-- A boolean field of the record decodes to what was encoded. -/
@[simp] theorem flagOfByte_flagByte (f : RecordFlag) (b : Bool) :
    flagOfByte f (flagByte f b) = b := by
  have h := flagTrue_ne_flagFalse f
  cases b <;> simp [flagOfByte, flagByte, h.symm]

/-- The position field of the record decodes to what was encoded. -/
@[simp] theorem posOfBytes_posByte (p : Word) : posOfBytes (posByte1 p) (posByte2 p) = p := by
  unfold posOfBytes posByte1 posByte2
  have h : p.extractLsb' 8 8 ++ p.extractLsb' 0 8 = p := by
    rw [BitVec.extractLsb'_append_extractLsb'_eq_extractLsb' (by rfl)]
    simp
  cases Config.recordPosOrder <;> exact h

/-- The marker is an ASCII byte. -/
theorem marker_lt : Config.marker.toNat < 128 := by
  unfold Config.marker
  have := Config.markerBits.isLt
  simp only [BitVec.toNat_setWidth]
  omega

/-- Storage that nothing has written does not hold the marker. -/
theorem marker_ne_blank : Config.marker ≠ Memory.blank := by
  intro h
  have h1 := marker_lt
  rw [h] at h1
  exact absurd h1 (by decide)

theorem recordCells_offset {w : BitVec 26} {c : Host.Cell} (h : c ∈ recordCells w) : c.1 < 6 := by
  simp only [recordCells, List.mem_cons, List.not_mem_nil, or_false] at h
  rcases h with rfl | rfl | rfl | rfl | rfl | rfl <;> simp

theorem writeCells_wf {cells : List Host.Cell} :
    ∀ {m : Memory}, (∀ c ∈ cells, c.1 < 6) → Memory.wf m = true →
      Memory.wf (writeCells cells m) = true := by
  induction cells with
  | nil => exact fun _ h => h
  | cons c rest ih =>
    intro m hc h
    exact ih (fun x hx => hc x (List.mem_cons_of_mem _ hx))
      (Memory.write_wf c.2 (hc c List.mem_cons_self) h)

theorem saveCells_wf {cells : List Host.Cell} :
    ∀ {m : Memory}, (∀ c ∈ cells, c.1 < 6) → Memory.wf m = true →
      Memory.wf (saveCells cells m).1 = true := by
  induction cells with
  | nil => exact fun _ h => h
  | cons c rest ih =>
    intro m hc h
    obtain ⟨a, b⟩ := c
    simp only [saveCells]
    split
    · exact ih (fun x hx => hc x (List.mem_cons_of_mem _ hx)) h
    · exact ih (fun x hx => hc x (List.mem_cons_of_mem _ hx))
        (Memory.write_wf b (hc (a, b) List.mem_cons_self) h)

/-- What the loop of `save()` leaves at an offset that it does not go over. -/
theorem saveCells_read_other {cells : List Host.Cell} {a : Nat} :
    ∀ {m : Memory}, (∀ c ∈ cells, c.1 ≠ a) →
      Memory.read (saveCells cells m).1 a = Memory.read m a := by
  induction cells with
  | nil => exact fun _ => rfl
  | cons c rest ih =>
    intro m hc
    obtain ⟨k, b⟩ := c
    have hk : a ≠ k := fun h => hc (k, b) List.mem_cons_self h.symm
    have hrest : ∀ c ∈ rest, c.1 ≠ a := fun x hx => hc x (List.mem_cons_of_mem _ hx)
    simp only [saveCells]
    split
    · exact ih hrest
    · rw [ih hrest, Memory.read_write_other m b hk]

theorem loadMemory_wf {m : Memory} (h : Memory.wf m = true) : Memory.wf (loadMemory m) = true := by
  unfold loadMemory loadWrites
  split
  · exact h
  · exact writeCells_wf (fun _ hc => recordCells_offset hc) h

end Sys2Proof.Machine
end

