-- ==== Sys2Proof/Laws/Step.lean ====
section
/-! SUPPORT. What a step does with the input it takes. -/

namespace Sys2Proof.Machine

theorem step_of_no_input {s : State} (h : s.inputs = []) : step s = .next s.begin := by
  simp [step, h]

theorem step_of_input {s : State} {x : Input} {rest : List Input} (h : s.inputs = x :: rest) :
    step s = perform x { s with inputs := rest } := by
  simp [step, h]

@[simp] theorem runEvents_nil (s : State) : runEvents [] s = .next s.begin := rfl

/-- One more event of a clock: it runs first, and its outputs come first. -/
theorem runEvents_cons_next {i : Instr} {rest : List Instr} {s t u : State}
    (h : exec i s = .next t) (hr : runEvents rest t = .next u) :
    runEvents (i :: rest) s = .next { u with out := t.out.merge u.out } := by
  simp [runEvents, h, hr]

end Sys2Proof.Machine
end

