-- ==== Sys2Proof/Laws/Tick.lean ====
section
/-! SUPPORT. What each step of a tick can do, said once. -/

namespace Sys2Proof.Machine

/-- Step 1 does nothing unless the countdown runs (R121). -/
theorem tickCountdown_of_not {s : State} (h : countingDown s = false) : tickCountdown s = s := by
  simp [tickCountdown, h]

/-- Step 1's three outcomes (R121). -/
theorem tickCountdown_cases (s : State) :
    (countingDown s = false ∧ tickCountdown s = s) ∨
      (countingDown s = true ∧ s.discnt ≤ 1 ∧
        tickCountdown s = { s with discnt := 0, disreq := false, drven := s.drven && s.hold }) ∨
      (countingDown s = true ∧ 2 ≤ s.discnt ∧
        tickCountdown s = { s with discnt := s.discnt - 1 }) := by
  unfold tickCountdown
  cases hc : countingDown s with
  | false => exact .inl ⟨rfl, rfl⟩
  | true =>
    right
    by_cases h : s.discnt - 1 = 0
    · left
      refine ⟨rfl, by omega, ?_⟩
      cases hh : s.hold <;> simp [h, drvDisable]
    · right
      exact ⟨rfl, by omega, by simp [h]⟩

/-- Step 4's two outcomes (R125). -/
theorem tickEnable_eq (s : State) :
    tickEnable s = { s with drven := s.drven || !atTarget s } := by
  unfold tickEnable
  cases ha : atTarget s <;> cases hd : s.drven <;> simp [drvEnable, ← hd]

/-- Step 5's bound tests never fail where its first conditions hold (R129). -/
theorem mustStepForward_eq (s : State) : mustStepForward s = decide (s.pos < s.tgt) := by
  unfold mustStepForward
  by_cases h : s.pos < s.tgt
  · have : s.pos < 65535#16 := by
      have := s.tgt.isLt
      simp only [BitVec.lt_def] at h ⊢
      simp only [BitVec.toNat_ofNat]
      omega
    simp [h, this]
  · simp [h]

/-- Step 5's bound tests never fail where its first conditions hold (R129). -/
theorem mustStepBackward_eq (s : State) : mustStepBackward s = decide (s.tgt < s.pos) := by
  unfold mustStepBackward
  by_cases h : s.tgt < s.pos
  · have : 0#16 < s.pos := by
      simp only [BitVec.lt_def] at h ⊢
      simp only [BitVec.toNat_ofNat]
      omega
    simp [h, this]
  · simp [h]

/-- Step 5's three outcomes (R126, R129). -/
theorem tickMove_cases (s : State) :
    (s.pos < s.tgt ∧ tickMove s = { drvStep .fwd s with pos := s.pos + 1#16 }) ∨
      (s.tgt < s.pos ∧ tickMove s = { drvStep .bwd s with pos := s.pos - 1#16 }) ∨
      (s.pos = s.tgt ∧ tickMove s = s) := by
  unfold tickMove
  rw [mustStepForward_eq, mustStepBackward_eq]
  by_cases h1 : s.pos < s.tgt
  · exact .inl ⟨h1, by simp [h1]⟩
  · by_cases h2 : s.tgt < s.pos
    · exact .inr (.inl ⟨h2, by simp [h1, h2]⟩)
    · refine .inr (.inr ⟨?_, by simp [h1, h2]⟩)
      simp only [BitVec.lt_def] at h1 h2
      exact BitVec.eq_of_toNat_eq (by omega)

/-- Step 6's two outcomes (R127). -/
theorem tickArrive_cases (s : State) :
    (s.pos = s.tgt ∧
        tickArrive s =
          { s with
            moving := false
            preq := true
            disreq := true
            discnt := Config.disableDelayTicks }) ∨
      (s.pos ≠ s.tgt ∧ tickArrive s = s) := by
  unfold tickArrive atTarget
  by_cases h : s.pos = s.tgt
  · exact .inl ⟨h, by simp [h, arm, requestPersist]⟩
  · exact .inr ⟨h, by simp [h]⟩

/-- The decimator's two outcomes (R123). -/
theorem tickDecimate_cases (s : State) :
    (s.divcnt + 1#8 < s.sdiv ∧ tickDecimate s = { s with divcnt := s.divcnt + 1#8 }) ∨
      (¬s.divcnt + 1#8 < s.sdiv ∧ tickDecimate s = tickAct { s with divcnt := 0#8 }) := by
  unfold tickDecimate belowDivisor
  by_cases h : s.divcnt + 1#8 < s.sdiv
  · exact .inl ⟨h, by simp [tickIncrement, h]⟩
  · exact .inr ⟨h, by simp [tickIncrement, h]⟩

/-- Steps 4 to 6 away from the target (R125, R126, R127): the driver is on, one step is made toward the
target, and the move ends when that step reaches it. -/
theorem tickAct_away {s : State} (hm : s.moving = true) (hne : s.pos ≠ s.tgt) :
    tickAct s =
      let d := if s.pos < s.tgt then Dir.fwd else Dir.bwd
      let p := if s.pos < s.tgt then s.pos + 1#16 else s.pos - 1#16
      { s with
        drven := true
        dir := d
        pos := p
        moving := decide (p ≠ s.tgt)
        preq := s.preq || decide (p = s.tgt)
        disreq := s.disreq || decide (p = s.tgt)
        discnt := if p = s.tgt then Config.disableDelayTicks else s.discnt
        out := { s.out with steps := s.out.steps ++ [d] } } := by
  obtain ⟨pos, tgt, moving, fine, sdiv, hold, drven, preq, divcnt, disreq, discnt, dir, out, draws, nv,
    saving, rx, lastCommand, now, inputs⟩ := s
  simp only at hm hne
  subst hm
  have hen : ∀ u : State, u.pos ≠ u.tgt → tickEnable u = { u with drven := true } := fun u hu => by
    rw [tickEnable_eq]
    simp [atTarget, hu]
  simp only [tickAct, idle, Bool.not_true, Bool.false_eq_true, if_false]
  rw [hen _ hne]
  unfold tickMove
  rw [mustStepForward_eq, mustStepBackward_eq]
  by_cases h1 : pos < tgt
  · by_cases h2 : pos + 1#16 = tgt <;>
      simp [h1, h2, tickArrive, atTarget, drvStep, emitStep, arm, requestPersist]
  · have h3 : tgt < pos := by
      have : pos.toNat ≠ tgt.toNat := fun h => hne (BitVec.eq_of_toNat_eq h)
      simp only [BitVec.lt_def] at h1 ⊢
      omega
    by_cases h2 : pos - 1#16 = tgt <;>
      simp [h1, h2, h3, tickArrive, atTarget, drvStep, emitStep, arm, requestPersist]

/-- Steps 4 to 6 at the target (R127): no enable, no step, the move ends. -/
theorem tickAct_atTarget {s : State} (hm : s.moving = true) (he : s.pos = s.tgt) :
    tickAct s =
      { s with
        moving := false
        preq := true
        disreq := true
        discnt := Config.disableDelayTicks } := by
  simp [tickAct, idle, hm, tickEnable, atTarget, he, tickMove, mustStepForward, mustStepBackward,
    tickArrive, arm, requestPersist]

/-- Step 3 (R124): in `Idle` an acting tick does nothing more. -/
theorem tickAct_idle {s : State} (hm : s.moving = false) : tickAct s = s := by
  simp [tickAct, idle, hm]

end Sys2Proof.Machine
end

