-- ==== Sys2Proof/Tests/Slice0.lean ====
section
/-! SUPPORT. Tests. The expected results come from the encodings of 30_encoding.md, from
opcode_table.json and from the vectors of 95_test_vectors.md (named in each comment), and a
`witness_<Name>` shows a state and operands that meet the hypotheses of Obligations.<Name>. -/

namespace Sys2Proof.Machine.Tests

/-! ### The state the vectors start from -/

/-- `POS`, `TGT` 0, `SDIV` 2, everything else 0: the vectors' common start (95_test_vectors.md). -/
def st : State :=
  { pos := 0, tgt := 0, moving := false, fine := false, sdiv := 2, hold := false, drven := false,
    preq := false, divcnt := 0, disreq := false, discnt := 0, dir := .bwd, out := Output.idle,
    draws := 0, nv := [], saving := none, rx := .idle, lastCommand := 0, now := 0, inputs := [] }

/-- A move under way. -/
def mv : State := { st with moving := true, tgt := 0x0013, pos := 0x0010 }

/-- Outputs of one pulse. -/
def pulse (d : Dir) : Output := { Output.idle with steps := [d] }

/-- Outputs of one reply. -/
def answer (n : Digits) (v : Word) : Output := { Output.idle with reply := some ⟨n, v⟩ }

/-! ### WellFormed -/

theorem test_wf_refuses_named_op : (Instr.unrecognized 0x10 0xFFFF).wf = false := by decide
theorem test_wf_refuses_stop_op : (Instr.unrecognized 0x00 0).wf = false := by decide
theorem test_wf_admits_first_and_last : (Instr.unrecognized 0x11 0).wf = true ∧
    (Instr.unrecognized 0xFF 0x1234).wf = true := by decide

/-! ### Decoding: the words of R71, R73, R74, R79 and of the vectors -/

/-- R74, the words of vectors M1 to M12: `op` in bits 23 to 16, `data` in bits 15 to 0. -/
theorem test_decode_motion :
    decodeCommand 0b00000000_0000000000000000 = .stop 0 ∧
    decodeCommand 0b00000010_0001001000110100 = .setPosition 0x1234 ∧
    decodeCommand 0b00000100_0100000000000000 = .setTarget 0x4000 ∧
    decodeCommand 0b00000101_0000000000000000 = .go 0 := by decide

/-- R74, the words of vectors K1 to K12. -/
theorem test_decode_configure :
    decodeCommand 0b00000111_0000000000000000 = .setFull 0 ∧
    decodeCommand 0b00001000_0000000000000000 = .setHalf 0 ∧
    decodeCommand 0b00001101_0000000000001000 = .setSdiv 8 ∧
    decodeCommand 0b00001111_0000000000000000 = .holdOn 0 ∧
    decodeCommand 0b00010000_0000000000000000 = .holdOff 0 := by decide

/-- R74, the words of vectors Q1 to Q8 and Q15. -/
theorem test_decode_query :
    decodeCommand 0b00000001_1011111011101111 = .getPosition 0xBEEF ∧
    decodeCommand 0b00000011_0000000000000000 = .getTarget 0 ∧
    decodeCommand 0b00000110_0000000000000000 = .getHalf 0 ∧
    decodeCommand 0b00001001_0000000000000000 = .getMoving 0 ∧
    decodeCommand 0b00001010_0000000000000000 = .getVersion 0 ∧
    decodeCommand 0b00001011_0000000000000000 = .getBacklight 0 ∧
    decodeCommand 0b00001100_0000000000000000 = .getSdiv 0 ∧
    decodeCommand 0b00001110_0000000000000000 = .getTemp 0 := by decide

/-- Q9, and the first and last `op` of each of the table's seven rows of this mnemonic. -/
theorem test_decode_unrecognized :
    decodeCommand 0x110000 = .unrecognized 0x11 0 ∧
    decodeCommand 0x12FFFF = .unrecognized 0x12 0xFFFF ∧
    decodeCommand 0x140000 = .unrecognized 0x14 0 ∧
    decodeCommand 0x180000 = .unrecognized 0x18 0 ∧
    decodeCommand 0x200000 = .unrecognized 0x20 0 ∧
    decodeCommand 0x400000 = .unrecognized 0x40 0 ∧
    decodeCommand 0x800000 = .unrecognized 0x80 0 ∧
    decodeCommand 0xFF1234 = .unrecognized 0xFF 0x1234 := by decide

/-- R71, the strobes; R87, the words of vectors Z1 and Z2. -/
theorem test_decode_events :
    decode (.evt ⟨0b00001, 0, 0⟩) = .ok .tick ∧
    decode (.evt ⟨0b00010, 0x044000, 0⟩) = .ok (.cmd 0x044000) ∧
    decode (.evt ⟨0b00100, 0, 0⟩) = .ok .persistTake ∧
    decode (.evt ⟨0b01000, 0, 0⟩) = .ok .forceDisable ∧
    decode (.evt ⟨0b10000, 0, 0x2010000⟩) = .ok (.reset 0x2010000) := ⟨rfl, rfl, rfl, rfl, rfl⟩

/-- R71, R72: no event, and more than one. `RESET` with others is `RESET` (Z4). -/
theorem test_decode_not_one_event :
    decode (.evt ⟨0b00000, 0, 0⟩) = .error .noEvent ∧
    decode (.evt ⟨0b00101, 0, 0⟩) = .error .coincident ∧
    decode (.evt ⟨0b10011, 0x050000, 0x0020010⟩) = .ok (.reset 0x0020010) := ⟨rfl, rfl, rfl⟩

/-- R79, vectors A1 to A6. -/
theorem test_decode_patterns :
    decode (.msel 0b000) = .ok .msenc1 ∧ decode (.msel 0b001) = .ok .msenc2 ∧
    decode (.msel 0b010) = .ok .msenc4 ∧ decode (.msel 0b011) = .ok .msenc8 ∧
    decode (.msel 0b100) = .ok .msenc16 ∧ decode (.msel 0b111) = .ok .msenc32 :=
  ⟨rfl, rfl, rfl, rfl, rfl, rfl⟩

/-- R80, U9. -/
theorem test_decode_reserved_patterns :
    decode (.msel 0b101) = .error .reservedPattern ∧
    decode (.msel 0b110) = .error .reservedPattern := ⟨rfl, rfl⟩

/-- The rows of opcode_table.json, by their `match` words. -/
theorem test_decode_table_words :
    decodeTableWord 24 0x040000 = some (.setTarget 0) ∧
    decodeTableWord 24 0xFF0000 = some (.unrecognized 0xFF 0) ∧
    decodeTableWord 8 0x01 = some .tick ∧ decodeTableWord 8 0x02 = some (.cmd 0) ∧
    decodeTableWord 8 0x04 = some .persistTake ∧ decodeTableWord 8 0x08 = some .forceDisable ∧
    decodeTableWord 8 0x10 = some (.reset 0) ∧ decodeTableWord 8 0x00 = some .msenc1 ∧
    decodeTableWord 8 0x03 = some .msenc8 ∧ decodeTableWord 8 0x07 = some .msenc32 ∧
    decodeTableWord 3 0x1 = some .msenc2 ∧ decodeTableWord 3 0x2 = some .msenc4 ∧
    decodeTableWord 3 0x4 = some .msenc16 := by decide

/-- Words of no row: reserved patterns, several strobes, a width no format has. -/
theorem test_decode_table_refuses :
    decodeTableWord 8 0x05 = none ∧ decodeTableWord 8 0x06 = none ∧ decodeTableWord 8 0x20 = none ∧
    decodeTableWord 3 0x5 = none ∧ decodeTableWord 24 0x1000000 = none ∧
    decodeTableWord 16 0 = none := by decide

/-- The table's own count: 35 rows, of 29 mnemonics. -/
theorem test_table_counts :
    opcodeTable.length = 35 ∧ (opcodeTable.map fun r => r.mnemonic).dedup.length = 29 := by decide

/-- R73: the first command word after the state of reset is fetched and run (E15: `:FG#`). -/
theorem test_fetch_runs_word :
    step (st.withFetchWord 24 0x050000) = .next { st with moving := true } := rfl

theorem test_fetch_runs_event :
    step (st.withFetchWord 8 0x01) = .next { st with divcnt := 1 } := rfl

theorem test_fetch_runs_pattern :
    step (st.withFetchWord 8 0x07) =
      .next { st with out := { Output.idle with pattern := some 0b111 } } := rfl

/-! ### The tick: vectors T1 to T16 -/

/-- T2. -/
theorem test_tick_T2 :
    exec .tick { st with divcnt := 1, tgt := 0x4000 } = .next { st with tgt := 0x4000 } := rfl

/-- T4: enable and first step in one tick. -/
theorem test_tick_T4 :
    exec .tick { mv with divcnt := 1 } =
      .next { mv with drven := true, dir := .fwd, pos := 0x0011, out := pulse .fwd } := rfl

/-- T5 (T7 alike at the upper bound). -/
theorem test_tick_T5 :
    exec .tick { mv with pos := 0x0012, divcnt := 1, drven := true } =
      .next
        { mv with
          drven := true, dir := .fwd, pos := 0x0013, moving := false, preq := true, disreq := true,
          discnt := Config.disableDelayTicks, out := pulse .fwd } := rfl

/-- T6. -/
theorem test_tick_T6 :
    exec .tick { mv with pos := 0x0100, tgt := 0x0100, divcnt := 1 } =
      .next
        { mv with
          pos := 0x0100, tgt := 0x0100, moving := false, preq := true, disreq := true,
          discnt := Config.disableDelayTicks } := rfl

/-- T9: backward, to the lower bound. -/
theorem test_tick_T9 :
    exec .tick { mv with pos := 0x0001, tgt := 0, sdiv := 1, drven := true } =
      .next
        { mv with
          pos := 0, tgt := 0, sdiv := 1, drven := true, dir := .bwd, moving := false, preq := true,
          disreq := true, discnt := Config.disableDelayTicks, out := pulse .bwd } := rfl

/-- T11, T12: the request is consumed at zero, and `HOLD` = 1 keeps the driver on. -/
theorem test_tick_T11_T12 :
    exec .tick { st with disreq := true, discnt := 1, drven := true } =
      .next { st with divcnt := 1 } ∧
    exec .tick { st with disreq := true, discnt := 1, drven := true, hold := true } =
      .next { st with divcnt := 1, drven := true, hold := true } := ⟨rfl, rfl⟩

/-- T15: `SDIV` lowered below the count. -/
theorem test_tick_T15 : exec .tick { st with divcnt := 5 } = .next st := rfl

/-! ### Commands: vectors M3 to M11, K1 to K12 -/

/-- M4: `STOP` executes in full in `Idle`. -/
theorem test_stop_M4 :
    exec (.stop 0xFFFF) { st with pos := 0x0010, tgt := 0x0050 } =
      .next
        { st with
          pos := 0x0010, tgt := 0x0010, disreq := true, discnt := Config.disableDelayTicks } := rfl

/-- M5, M12. -/
theorem test_set_position_M5_M12 :
    exec (.cmd 0x021234) { mv with pos := 3 } = .next { mv with pos := 3 } ∧
    exec (.cmd 0x020000) { st with pos := 0xFFFF } = .next { st with preq := true } := ⟨rfl, rfl⟩

/-- M1, M6. -/
theorem test_set_target_M1_M6 :
    exec (.cmd 0x044000) st = .next { st with tgt := 0x4000 } ∧
    exec (.cmd 0x040099) mv = .next mv := ⟨rfl, rfl⟩

/-- M2. -/
theorem test_go_M2 :
    exec (.cmd 0x050000) { st with tgt := 0x4000, divcnt := 1 } =
      .next { st with tgt := 0x4000, divcnt := 1, moving := true } := rfl

/-- K1, M8. -/
theorem test_set_full_K1_M8 :
    exec (.cmd 0x070000) { st with fine := true } = .next { st with preq := true } ∧
    exec (.cmd 0x070000) { mv with fine := true } = .next { mv with fine := true } := ⟨rfl, rfl⟩

/-- K2, M7. -/
theorem test_set_half_K2_M7 :
    exec (.cmd 0x080000) st = .next { st with fine := true, preq := true } ∧
    exec (.cmd 0x080000) mv = .next mv := ⟨rfl, rfl⟩

/-- K5, K6: `data[15:8]` ignored, no clamping. -/
theorem test_set_sdiv_K5_K6 :
    exec (.cmd 0x0DAB00) st = .next { st with sdiv := 0, preq := true } ∧
    exec (.cmd 0x0D00FF) st = .next { st with sdiv := 0xFF, preq := true } := ⟨rfl, rfl⟩

/-- K8, K9. -/
theorem test_hold_on_K8_K9 :
    exec (.cmd 0x0F0000) { mv with drven := true } =
      .next { mv with drven := true, hold := true, preq := true } ∧
    exec (.cmd 0x0F0000) { st with drven := true, disreq := true, discnt := 2 } =
      .next { st with drven := true, disreq := true, discnt := 2, hold := true, preq := true } :=
  ⟨rfl, rfl⟩

/-- K10. -/
theorem test_hold_off_K10 :
    exec (.cmd 0x100000) { st with hold := true, drven := true } =
      .next { st with drven := true, disreq := true, discnt := Config.disableDelayTicks } := rfl

/-! ### Queries: Q1 to Q15 -/

/-- The vectors' state for Q1 to Q9. -/
def qs : State := { st with pos := 0x0020, tgt := 0x0030, moving := true }

/-- Q1, Q2, Q15. -/
theorem test_positions_Q1_Q2 :
    exec (.cmd 0x01BEEF) qs = .next { qs with out := answer .four 0x0020 } ∧
    exec (.cmd 0x030000) qs = .next { qs with out := answer .four 0x0030 } := ⟨rfl, rfl⟩

/-- Q3, Q10. -/
theorem test_get_half_Q3_Q10 :
    exec (.cmd 0x060000) qs = .next { qs with out := answer .two 0x00 } ∧
    exec (.cmd 0x060000) { qs with fine := true } =
      .next { qs with fine := true, out := answer .two 0xFF } := ⟨rfl, rfl⟩

/-- Q4, Q11. -/
theorem test_get_moving_Q4_Q11 :
    exec (.cmd 0x090000) qs = .next { qs with out := answer .two 0x01 } ∧
    exec (.cmd 0x090000) st = .next { st with out := answer .two 0x00 } := ⟨rfl, rfl⟩

/-- Q5, Q6, Q7. -/
theorem test_fixed_Q5_Q6_Q7 :
    exec (.cmd 0x0A0000) qs = .next { qs with out := answer .two 0x01 } ∧
    exec (.cmd 0x0B0000) qs = .next { qs with out := answer .two 0x00 } ∧
    exec (.cmd 0x0E0000) qs = .next { qs with out := answer .four 0x0000 } := ⟨rfl, rfl, rfl⟩

/-- Q8, Q14. -/
theorem test_get_sdiv_Q8_Q14 :
    exec (.cmd 0x0C0000) qs = .next { qs with out := answer .two 0x02 } ∧
    exec (.cmd 0x0C0000) { qs with sdiv := 0xFF } =
      .next { qs with sdiv := 0xFF, out := answer .two 0xFF } := ⟨rfl, rfl⟩

/-- Q9. -/
theorem test_unrecognized_Q9 :
    exec (.cmd 0x110000) qs = .next qs ∧ exec (.cmd 0xFF1234) qs = .next qs := ⟨rfl, rfl⟩

/-- Q1 and Q3 at the reply port; no value without `rsp_valid`. -/
theorem test_reply_port_Q1_Q3 :
    rspDigits { qs with out := answer .four 0x0020 } = some true ∧
    rspData { qs with out := answer .four 0x0020 } = some 0x0020 ∧
    rspDigits { qs with out := answer .two 0x00 } = some false ∧
    rspValid qs = false ∧ rspDigits qs = none ∧ rspData qs = none := by decide

/-- R77 and the characters of Q10 and Q13: `FF#`, `00AB#`. -/
theorem test_render_Q10_Q13 :
    renderReply ⟨.two, 0xFF⟩ = [0x46, 0x46, 0x23] ∧
    renderReply ⟨.four, 0x00AB⟩ = [0x30, 0x30, 0x41, 0x42, 0x23] := by decide

/-! ### Host services, reset, coincident strobes: H1 to H6, Z1 to Z6 -/

/-- H1, H2. -/
theorem test_persist_take_H1_H2 :
    exec .persistTake { st with pos := 0x0013, preq := true } =
      .next { st with pos := 0x0013, out := { Output.idle with snap := some 0x0020013 } } ∧
    exec .persistTake { st with pos := 0x0100, hold := true } =
      .next { st with pos := 0x0100, hold := true,
                      out := { Output.idle with snap := some 0x2020100 } } := ⟨rfl, rfl⟩

/-- H5. -/
theorem test_force_disable_H5 :
    exec .forceDisable { st with hold := true, drven := true } = .next { st with hold := true } := rfl

/-- H3: the four persisted fields of 0x3FF1234, in mid-move (Z3). -/
theorem test_reset_H3_Z3 :
    exec (.reset 0x3FF1234) { mv with drven := true, preq := true } =
      .next
        { st with
          pos := 0x1234, tgt := 0x1234, fine := true, sdiv := 0xFF, hold := true,
          dir := Config.freeDir 0, draws := 1 } := rfl

/-- Z5: `TICK` first, then `GO`, and no step in that clock. -/
theorem test_coincident_Z5 :
    step { st with sdiv := 1, tgt := 1, inputs := [.clock ⟨0b00011, 0x050000, 0⟩] } =
      .next { st with sdiv := 1, tgt := 1, moving := true } := rfl

/-- Z6: `PERSIST_TAKE` first, and the arrival's request is not lost. -/
theorem test_coincident_Z6 :
    step { st with moving := true, tgt := 1, sdiv := 1, drven := true, preq := true,
                   inputs := [.clock ⟨0b00101, 0, 0⟩] } =
      .next
        { st with
          pos := 1, tgt := 1, sdiv := 1, drven := true, dir := .fwd, preq := true, disreq := true,
          discnt := Config.disableDelayTicks,
          out := { Output.idle with steps := [.fwd], snap := some 0x0010000 } } := rfl

/-- A1 to A6, as evaluations. -/
theorem test_msenc :
    exec .msenc1 mv = .next { mv with out := { Output.idle with pattern := some 0b000 } } ∧
    exec .msenc2 mv = .next { mv with out := { Output.idle with pattern := some 0b001 } } ∧
    exec .msenc4 mv = .next { mv with out := { Output.idle with pattern := some 0b010 } } ∧
    exec .msenc8 mv = .next { mv with out := { Output.idle with pattern := some 0b011 } } ∧
    exec .msenc16 mv = .next { mv with out := { Output.idle with pattern := some 0b100 } } ∧
    exec .msenc32 mv = .next { mv with out := { Output.idle with pattern := some 0b111 } } :=
  ⟨rfl, rfl, rfl, rfl, rfl, rfl⟩

/-- A7. -/
theorem test_msenc_domain_A7 :
    levelOfMultiplier 3 = none ∧ levelOfMultiplier 64 = none ∧ levelOfMultiplier 0 = none := by decide

/-! ### The environment -/

/-- E15: `:SN4000#`, at the dispatcher. -/
theorem test_dispatch_SN4000 :
    dispatchMessage 0 [0x53, 0x4E, 0x34, 0x30, 0x30, 0x30] = some (.setTarget, 0x044000) := rfl

/-- E11: the reply `4000#` to `:GP#`, byte by byte on the wire. -/
theorem test_serial_GP :
    (match performAll [.serialByte 0x3A, .serialByte 0x47, .serialByte 0x50, .serialByte 0x23]
        { st with pos := 0x4000 } with
      | .next t => t.out.tx
      | .fault _ => []
      | .refused _ => []) = [0x34, 0x30, 0x30, 0x30, 0x23] := rfl

/-- R83: `h3`·4096 + `h2`·256 + `h1`·16 + `h0`; two digits; U2's lower case is not read. -/
theorem test_payload :
    payloadData 4 [0x31, 0x32, 0x41, 0x46] = some 0x12AF ∧
    payloadData 2 [0x46, 0x30] = some 0x00F0 ∧ payloadData 2 [0x66, 0x30] = none ∧
    payloadData 4 [0x34, 0x30] = none := by decide

/-- H8: one changed byte of the position is one write. -/
theorem test_save_H8 :
    (saveCells [(1, 0x13), (2, 0x00)] [(1, 0x10), (2, 0x00)]) =
      ([(1, 0x13), (2, 0x00)], [(1, 0x13)]) := by decide

/-- Writing what an unlisted offset reads as removes the entry. -/
theorem test_memory_canonical :
    Memory.write [(1, 0x10), (2, 0x20)] 1 0xFF = [(2, 0x20)] ∧
    Memory.wf [(1, 0x10), (2, 0xFF)] = false ∧ Memory.wf [(2, 0x10), (1, 0x20)] = false ∧
    Memory.wf [(6, 0x10)] = false := by decide

theorem test_reset_memory_wf : Memory.wf State.reset.nv = true := loadMemory_wf rfl

/-! ### Witnesses: the hypotheses of each statement, met -/

theorem witness_DecodeOfEncode : (Instr.unrecognized 0x11 0).wf = true ∧
    (Instr.setSdiv 0xFFFF).wf = true := by decide

theorem witness_StepRunsDecodedInstruction :
    inputOf (.cmd 0x044000) = some (.clock ⟨0b00010, 0x044000, 0⟩) ∧
    { st with inputs := [.clock ⟨0b00010, 0x044000, 0⟩, .service] }.inputs =
      .clock ⟨0b00010, 0x044000, 0⟩ :: [.service] ∧
    decode (.cmd 0x044000) = .ok (.setTarget 0x4000) ∧
    inputOf (.msel 0b111) = some (.setResolution .x32) ∧ decode (.msel 0b111) = .ok .msenc32 :=
  ⟨rfl, rfl, rfl, rfl, rfl⟩

theorem witness_CoincidentStrobesInOrder :
    { st with inputs := [.clock ⟨0b11111, 0, 0⟩] }.inputs = [.clock ⟨0b11111, 0, 0⟩] ∧
    (0b11111#5).getLsbD 4 = true ∧
    { st with inputs := [.clock ⟨0b01111, 0, 0⟩] }.inputs = [.clock ⟨0b01111, 0, 0⟩] ∧
    (0b01111#5).getLsbD 4 = false := by decide

theorem witness_NoEventChangesNothing :
    { st with inputs := [.clock ⟨0, 5, 6⟩, .save] }.inputs = .clock ⟨0, 5, 6⟩ :: [.save] ∧
    st.inputs = [] := by decide

theorem witness_ResetInstallsRegisters :
    (0b10011#5).getLsbD 4 = true ∧
    { mv with inputs := [.clock ⟨0b10011, 0x050000, 0x0020010⟩] }.inputs =
      [.clock ⟨0b10011, 0x050000, 0x0020010⟩] ∧
    ∃ t, exec (.reset 0x0020010) mv = .next t := ⟨rfl, rfl, _, rfl⟩

theorem witness_PowerUpOnUninitialisedStorage :
    Memory.wf mv.nv = true ∧ Memory.read mv.nv 0 ≠ Config.marker ∧ Register.tgt ≠ Register.dir :=
  ⟨rfl, marker_ne_blank.symm, by decide⟩

/-- The last tick of a countdown, and an earlier one. -/
theorem witness_IdleTickCountsDown :
    ({ st with disreq := true, discnt := 1 }.moving = false ∧
      { st with disreq := true, discnt := 1 }.disreq = true ∧
      1 ≤ { st with disreq := true, discnt := 1 }.discnt) ∧
    1 ≤ { st with disreq := true, discnt := 4 }.discnt := by decide

theorem witness_QuiescentTickChangesOnlyDivcnt : quiescent st = true ∧ acts st = false ∧
    acts { st with divcnt := 1 } = true := by decide

/-- T3. -/
theorem witness_NonActingTickWhileMoving : mv.moving = true ∧ acts mv = false := by decide

/-- T4 forward, T9 backward, T6 at the target. -/
theorem witness_ActingTickWhileMoving :
    ({ mv with divcnt := 1 }.moving = true ∧ acts { mv with divcnt := 1 } = true ∧
      { mv with divcnt := 1 }.pos ≠ { mv with divcnt := 1 }.tgt) ∧
    ({ mv with pos := 1, tgt := 0, sdiv := 1 }.moving = true ∧
      acts { mv with pos := 1, tgt := 0, sdiv := 1 } = true ∧ (1#16 : Word) ≠ 0) ∧
    ({ mv with pos := 0x13, divcnt := 1 }.moving = true ∧
      acts { mv with pos := 0x13, divcnt := 1 } = true ∧
      { mv with pos := 0x13, divcnt := 1 }.pos = { mv with pos := 0x13, divcnt := 1 }.tgt) := by
  decide

theorem witness_IdleTicksNeverMove : { st with tgt := 0x4000, drven := true }.moving = false := rfl

/-- T7 at the upper bound, T9 at the lower, T2 at rest: the three clauses. -/
theorem witness_PositionNeverWraps :
    (∃ t, exec .tick { mv with pos := 0xFFFE, tgt := 0xFFFF, sdiv := 1 } = .next t ∧
      t.pos = 0xFFFF) ∧
    (∃ t, exec .tick { mv with pos := 1, tgt := 0, sdiv := 1 } = .next t ∧ t.pos = 0) ∧
    (∃ t, exec .tick { st with tgt := 0x4000 } = .next t ∧ t.pos = 0) :=
  ⟨⟨_, rfl, rfl⟩, ⟨_, rfl, rfl⟩, ⟨_, rfl, rfl⟩⟩

/-- Each clause at the ends of its range. -/
theorem witness_DivisorSelectsActingTicks :
    (DecimatorOk { st with sdiv := 0, divcnt := 254 } ∧ (0#8).toNat ≤ 1 ∧ (1#8).toNat ≤ 1) ∧
    (1 ≤ (1#8).toNat ∧ 1 ≤ (255#8).toNat ∧ st.divcnt = 0#8) ∧
    (DecimatorOk { st with sdiv := 254, divcnt := 254 } ∧ (254#8).toNat ≤ (254#8).toNat) := by
  simp [DecimatorOk, st]

/-- The shortest countdown in `Idle`; while moving, T13 before and at the arrival. -/
theorem witness_CountdownEndsOnItsTick :
    ({ st with disreq := true, discnt := 1 }.moving = false ∧
      { st with disreq := true, discnt := 1 }.disreq = true ∧
      1 ≤ { st with disreq := true, discnt := 1 }.discnt ∧
      0 < { st with disreq := true, discnt := 1 }.discnt) ∧
    (∃ t, exec .tick { mv with disreq := true, discnt := 2 } = .next t ∧ t.moving = true) ∧
    (∃ t, exec .tick { mv with pos := 1, tgt := 2, sdiv := 1, disreq := true, discnt := 2 } =
      .next t ∧ t.moving = false) :=
  ⟨by decide, ⟨_, rfl, rfl⟩, ⟨_, rfl, rfl⟩⟩

/-- A move of no step, one of three, and one with the decimator at its bound. -/
theorem witness_WholeMoveTiming :
    (DecimatorOk st ∧ st.moving = false ∧ exec (.go 0) st = .next { st with moving := true }) ∧
    (DecimatorOk { st with pos := 3, divcnt := 254, hold := true } ∧
      ∃ g, exec (.go 0) { st with pos := 3, divcnt := 254, hold := true } = .next g) :=
  ⟨⟨by simp [DecimatorOk, st], rfl, rfl⟩, by simp [DecimatorOk], _, rfl⟩

theorem witness_SetPositionAndTarget : st.moving = false ∧ mv.moving = true := ⟨rfl, rfl⟩

theorem witness_SetResolution :
    { st with fine := true }.moving = false ∧ mv.moving = true ∧ mv.fine = false ∧
    { st with fine := true }.fine = true := ⟨rfl, rfl, rfl, rfl⟩

theorem witness_SetSdiv : { st with divcnt := 5 }.moving = false ∧ mv.moving = true := ⟨rfl, rfl⟩

/-- A set command, and one that is none. -/
theorem witness_SetCommandsAloneAreRejected :
    mv.moving = true ∧ opField 0x0D0010 ∈ [0x02#8, 0x04#8, 0x07#8, 0x08#8, 0x0D#8] ∧
    opField 0x0F0000 ∉ [0x02#8, 0x04#8, 0x07#8, 0x08#8, 0x0D#8] ∧ opField 0x0F0000 ≠ 0x09#8 := by
  decide

/-- The two ends of the range; a message too short for a code; the ninth content byte. -/
theorem witness_UnrecognizedIsSilent :
    (0x11#8 ≤ 0x11#8 ∧ 0x11#8 ≤ 0xFF#8) ∧ dispatchMessage st.draws [0x47] = none ∧
    overflows { st with rx := .collecting [1, 2, 3, 4, 5, 6, 7, 8] }.rx 9 = true ∧
    overflows { st with rx := .collecting [1, 2, 3, 4, 5, 6, 7] }.rx 9 = false := by decide

theorem witness_QueriesHaveNoSideEffect :
    (Instr.getTemp 0xBEEF, Instr.getTemp 0) ∈
      [(.getPosition 0xBEEF, .getPosition 0), (.getTarget 0xBEEF, .getTarget 0),
        (.getHalf 0xBEEF, .getHalf 0), (.getMoving 0xBEEF, .getMoving 0),
        (.getVersion 0xBEEF, .getVersion 0), (.getBacklight 0xBEEF, .getBacklight 0),
        (.getSdiv 0xBEEF, .getSdiv 0), (.getTemp 0xBEEF, .getTemp 0)] := by decide

/-- H1. -/
theorem witness_SnapshotRestoresPersistedSubset :
    ∃ t, exec .persistTake { st with pos := 0x0013, preq := true } = .next t ∧
      t.out.snap = some 0x0020013 := ⟨_, rfl, rfl⟩

/-- A blank cell of the table, and a "cond" cell while moving, by command word and by instruction. -/
theorem witness_WriteAccessTable :
    ((∃ t, exec .tick mv = .next t) ∧ Register.tgt ∉ writes .tick) ∧
    ((∃ t, exec (.cmd 0x040099) mv = .next t) ∧ needsIdle (opOf (opField 0x040099)) = true ∧
      encode (.setTarget 0x0099) = .cmd 0x040099 ∧ mv.moving = true) :=
  ⟨⟨⟨_, rfl⟩, by decide⟩, ⟨_, rfl⟩, rfl, rfl, rfl⟩

/-- A step, a reply, a snapshot: each clause's premise. -/
theorem witness_OutputsBelongToTheirEvents :
    (∃ t, exec .tick { mv with divcnt := 1 } = .next t ∧ t.out.steps ≠ []) ∧
    (∃ t, exec (.getTemp 0) mv = .next t ∧ t.out.reply ≠ none) ∧
    (∃ t, exec .persistTake mv = .next t ∧ t.out.snap ≠ none) :=
  ⟨⟨_, rfl, by decide⟩, ⟨_, rfl, by decide⟩, ⟨_, rfl, by decide⟩⟩

theorem witness_StepsOnlyWhileEnabled :
    ∃ t, exec .tick { mv with divcnt := 1 } = .next t ∧ Dir.fwd ∈ t.out.steps :=
  ⟨_, rfl, by decide⟩

/-- The one rise, and the three falls. -/
theorem witness_MotionFlagTransitions :
    (∃ t, exec (.go 0) st = .next t ∧ st.moving = false ∧ t.moving = true) ∧
    (∃ t, exec (.cmd 0x000000) mv = .next t ∧ mv.moving = true ∧ t.moving = false) ∧
    (∃ t, exec .tick { mv with pos := 0x12, divcnt := 1 } = .next t ∧ t.moving = false) ∧
    (∃ t, exec (.reset 0) mv = .next t ∧ t.moving = false) :=
  ⟨⟨_, rfl, rfl, rfl⟩, ⟨_, rfl, rfl, rfl⟩, ⟨_, rfl, rfl⟩, ⟨_, rfl, rfl⟩⟩

theorem witness_SettingsFixedWhileMoving :
    (∃ t, exec (.stop 0) mv = .next t) ∧ mv.moving = true ∧ (∀ init, Instr.stop 0 ≠ .reset init) :=
  ⟨⟨_, rfl⟩, rfl, fun _ h => by cases h⟩

theorem witness_PersistRequestIsNotLost :
    (∃ t, exec .persistTake { st with preq := true } = .next t ∧ t.preq = false) ∧
    (∃ t, exec (.reset 0) { st with preq := true } = .next t ∧ t.preq = false) :=
  ⟨⟨_, rfl, rfl⟩, ⟨_, rfl, rfl⟩⟩

theorem witness_DirectionIsNeverRead : ∃ t, exec .tick { mv with divcnt := 1 } = .next t := ⟨_, rfl⟩

theorem witness_EventsLeaveEnvironment :
    ∃ t, exec .persistTake { mv with nv := [(4, 2)], saving := some 0 } = .next t := ⟨_, rfl⟩

/-- A moving state with a pending disable, storage and a full receive buffer. -/
theorem witness_StepKeepsInvariant :
    ∃ s t : State, Inv s ∧ s.moving = true ∧ s.disreq = true ∧ step s = .next t := by
  refine ⟨{ mv with
    disreq := true, discnt := 1, divcnt := 254, drven := true, nv := [(4, 2)],
    rx := .collecting [1, 2, 3, 4, 5, 6, 7, 8], now := 3, inputs := [.clock ⟨0b00001, 0, 0⟩] }, _,
    ⟨⟨fun _ => ⟨by decide, one_le_disableDelayTicks⟩, fun h => ?_⟩, ?_, fun h => ?_, rfl,
      fun _ h => ?_, ?_⟩, rfl, rfl, rfl⟩
  · cases h
  · show 254 ≤ 254
    decide
  · cases h
  · cases h
    decide
  · show 0 ≤ 3
    decide

theorem witness_SaveThenLoadRoundTrip : Memory.wf [(1, 0x10), (4, 2)] = true := by decide

theorem witness_SaveWritesChangedBytesOnly : Memory.wf [(0, 0x41), (5, 0)] = true := by decide

/-- Both clauses: storage with the marker, and storage that nothing has written. -/
theorem witness_LoadAdoptsOrRepairs :
    (Memory.wf [(0, Config.marker)] = true ∧
      Memory.read [(0, Config.marker)] 0 = Config.marker) ∧
    (Memory.wf [] = true ∧ Memory.read [] 0 ≠ Config.marker) :=
  ⟨⟨by simp [Memory.wf, Memory.risesFrom, marker_ne_blank], rfl⟩, rfl, marker_ne_blank.symm⟩

/-- The shortest content, and one of full capacity. -/
theorem witness_FramedMessageIsDispatched :
    st.rx = .idle ∧ ([] : List Byte).length ≤ bufferCapacity ∧
    [0x53#8, 0x4E#8, 0x34#8, 0x30#8, 0x30#8, 0x30#8, 0x41#8, 0x42#8].length ≤ bufferCapacity ∧
    (∀ b ∈ [0x53#8, 0x4E#8, 0x34#8, 0x30#8, 0x30#8, 0x30#8, 0x41#8, 0x42#8],
      b ≠ startByte ∧ b ≠ endByte) := by decide

theorem witness_KnownSerialCommands :
    renderReply ⟨.four, 0x12AF⟩ = [0x31, 0x32, 0x41, 0x46, endByte] := by decide

/-- A command with a reply, one without, and a set command in `Idle`. -/
theorem witness_DispatchedCommandRuns :
    (dispatchMessage st.draws [0x47, 0x50] = some (.getPosition, 0x010000) ∧
      ∃ t, exec (.cmd 0x010000) { st with draws := 1 } = .next t ∧
        t.out.reply = some ⟨.four, 0⟩) ∧
    (dispatchMessage st.draws [0x46, 0x47] = some (.go, 0x050000) ∧
      (∃ t, exec (.cmd 0x050000) { st with draws := 1 } = .next t ∧ t.out.reply = none) ∧
      needsIdle .go = false) ∧
    (dispatchMessage st.draws [0x53, 0x50, 0x31, 0x32, 0x33, 0x34] = some (.setPosition, 0x021234) ∧
      st.moving = false) :=
  ⟨⟨rfl, _, rfl, rfl⟩, ⟨rfl, ⟨_, rfl, rfl⟩, rfl⟩, rfl, rfl⟩

/-- The first instant past the timeout, and the last one within it. -/
theorem witness_DisconnectCheckForcesDisable :
    { st with lastCommand := 7, now := 8 + Config.disconnectTimeout }.lastCommand +
        Config.disconnectTimeout < 8 + Config.disconnectTimeout ∧
    7 + Config.disconnectTimeout ≤
      { st with lastCommand := 7, now := 7 + Config.disconnectTimeout }.lastCommand +
        Config.disconnectTimeout :=
  ⟨Nat.add_lt_add_right (by decide) _, Nat.le_refl _⟩

/-- The request is serviced, the block moves on, the save runs, power comes up. -/
theorem witness_ServicedRequestSurvivesPowerUp :
    ∃ t v r : State,
      let s := { st with pos := 0x0013, preq := true }
      let u := { t with pos := 0x0014, preq := true }
      s.preq = true ∧ s.saving = none ∧ Memory.wf s.nv = true ∧ perform .service s = .next t ∧
        u.nv = t.nv ∧ u.saving = t.saving ∧ perform .save u = .next v ∧
        perform .powerUp v = .next r :=
  ⟨_, _, _, rfl, rfl, rfl, rfl, rfl, rfl, rfl, rfl⟩

/-- A `save()` in progress, and none. -/
theorem witness_PowerLossMixesOldAndNewBytes :
    Memory.wf mv.nv = true ∧ { mv with saving := some 0x0020013 }.saving = some 0x0020013 ∧
    (4, 2#8) ∈ recordCells 0x0020013 ∧ st.saving = none :=
  ⟨rfl, rfl, by simp [recordCells, persistedSdiv], rfl⟩

end Sys2Proof.Machine.Tests
end

/-! Proofs of the statements of 00_scope.md: every event has a next state (R16), and which event may
put what on the output ports (R13, R76). -/

namespace Sys2Proof.Machine

/-! ### Commands -/

/-- The word that a command was decoded from is its encoding (R73, R74). -/
@[simp] theorem encode_decodeCommand (w : BitVec 24) : encode (decodeCommand w) = .cmd w := by
  suffices h : encode (decodeCommand w) = .cmd (commandWord (opField w) (dataField w)) by
    rw [h, commandWord_fields]
  unfold decodeCommand
  cases hop : opOf (opField w) with
  | unrecognized => rfl
  | _ =>
    have hcode := opCode_opOf (op := opField w) (by simp [hop])
    rw [← hcode, hop]
    rfl

/-- `CMD(word)` is the command that the word decodes to (R74). -/
theorem exec_cmd (w : BitVec 24) (s : State) : exec (.cmd w) s = exec (decodeCommand w) s := by
  change execCmd w s = _
  unfold execCmd decodeCommand
  cases opOf (opField w) <;> rfl

/-! ### Next states (R16) -/

theorem whenIdle_total (s : State) (effect : State → State) : ∃ t, whenIdle s effect = .next t := by
  cases hm : s.moving with
  | true => exact ⟨_, whenIdle_moving effect hm⟩
  | false => exact ⟨_, whenIdle_idle effect hm⟩

theorem andThen_total {o : Host.Outcome State Fault Refusal}
    {f : State → Host.Outcome State Fault Refusal} (ho : ∃ t, o = .next t)
    (hf : ∀ t, ∃ u, f t = .next u) : ∃ u, andThen o f = .next u := by
  obtain ⟨t, rfl⟩ := ho
  exact hf t

theorem exec_command_total {i : Instr} {w : BitVec 24} (hc : encode i = .cmd w) (s : State) :
    ∃ t, exec i s = .next t := by
  cases i with
  | setPosition _ | setTarget _ | setFull _ | setHalf _ | setSdiv _ =>
    unfold exec
    exact whenIdle_total s _
  | tick | cmd _ | persistTake | forceDisable | reset _ => cases hc
  | msenc1 | msenc2 | msenc4 | msenc8 | msenc16 | msenc32 => cases hc
  | _ => exact ⟨_, rfl⟩

theorem exec_total (i : Instr) (s : State) : ∃ t, exec i s = .next t := by
  cases i with
  | cmd w =>
    rw [exec_cmd]
    exact exec_command_total (encode_decodeCommand w) s
  | tick | persistTake | forceDisable | reset _ => exact ⟨_, rfl⟩
  | msenc1 | msenc2 | msenc4 | msenc8 | msenc16 | msenc32 => exact ⟨_, rfl⟩
  | _ => exact exec_command_total rfl s

theorem runEvents_total (is : List Instr) (s : State) : ∃ t, runEvents is s = .next t := by
  induction is generalizing s with
  | nil => exact ⟨_, runEvents_nil s⟩
  | cons i rest ih =>
    obtain ⟨t, ht⟩ := exec_total i s
    obtain ⟨u, hu⟩ := ih t
    exact ⟨_, runEvents_cons_next ht hu⟩

theorem envDispatch_total (content : List Byte) (s : State) :
    ∃ t, envDispatch content s = .next t := by
  unfold envDispatch
  split
  · exact ⟨_, rfl⟩
  · exact andThen_total (exec_total _ _) fun _ => ⟨_, rfl⟩

theorem envSerialByte_total (b : Byte) (s : State) : ∃ t, envSerialByte b s = .next t := by
  unfold envSerialByte
  split
  · exact ⟨_, rfl⟩
  · exact envDispatch_total _ _

theorem envService_total (s : State) : ∃ t, envService s = .next t := by
  unfold envService
  split
  · exact andThen_total (exec_total _ _) fun _ => ⟨_, rfl⟩
  · exact ⟨_, rfl⟩

theorem envSave_total (s : State) : ∃ t, envSave s = .next t := by
  unfold envSave
  split <;> exact ⟨_, rfl⟩

theorem envCheckDisconnect_total (s : State) : ∃ t, envCheckDisconnect s = .next t := by
  unfold envCheckDisconnect
  split
  · exact exec_total _ _
  · exact ⟨_, rfl⟩

theorem envPowerUp_total (s : State) : ∃ t, envPowerUp s = .next t :=
  andThen_total (exec_total _ _) fun _ => ⟨_, rfl⟩

theorem perform_total (x : Input) (s : State) : ∃ t, perform x s = .next t := by
  cases x with
  | clock c => exact runEvents_total _ s
  | setResolution l => exact exec_total _ s
  | serialByte b => exact envSerialByte_total b s
  | service => exact envService_total s
  | save => exact envSave_total s
  | checkDisconnect => exact envCheckDisconnect_total s
  | elapse d => exact ⟨_, rfl⟩
  | powerUp => exact envPowerUp_total s
  | powerLoss written => exact envPowerUp_total _

theorem step_total (s : State) : ∃ t, step s = .next t := by
  cases h : s.inputs with
  | nil => exact ⟨_, step_of_no_input h⟩
  | cons x rest =>
    rw [step_of_input h]
    exact perform_total x _

theorem multiplier_mem (l : Level) : multiplier l ∈ [1, 2, 4, 8, 16, 32] := by
  cases l <;> decide

/-- Settles O10: no arm of `exec` refuses, and every input's effect is built from `exec`. -/
theorem everyEventHasNextState : Obligations.EveryEventHasNextState :=
  ⟨exec_total, step_total, one_le_disableDelayTicks, multiplier_mem _, multiplier_mem _⟩

/-! ### Outputs (R13, R76) -/

@[simp] theorem Output.idle_steps : Output.idle.steps = [] := rfl
@[simp] theorem Output.idle_reply : Output.idle.reply = none := rfl
@[simp] theorem Output.idle_snap : Output.idle.snap = none := rfl

theorem tickCountdown_out (s : State) : (tickCountdown s).out = s.out := by
  rcases tickCountdown_cases s with ⟨_, h⟩ | ⟨_, _, h⟩ | ⟨_, _, h⟩ <;> rw [h]

/-- Steps 3 to 6 add at most one pulse to the outputs, and nothing else (R124 to R127). -/
theorem tickAct_out (s : State) :
    ∃ ds : List Dir, ds.length ≤ 1 ∧
      (tickAct s).out = { s.out with steps := s.out.steps ++ ds } := by
  cases hm : s.moving with
  | false => exact ⟨[], by simp, by simp [tickAct_idle hm]⟩
  | true =>
    by_cases he : s.pos = s.tgt
    · exact ⟨[], by simp, by simp [tickAct_atTarget hm he]⟩
    · exact ⟨[if s.pos < s.tgt then .fwd else .bwd], by simp, by rw [tickAct_away hm he]⟩

/-- Steps 2 to 6 add at most one pulse to the outputs, and nothing else (R123 to R127). -/
theorem tickDecimate_out (s : State) :
    ∃ ds : List Dir, ds.length ≤ 1 ∧
      (tickDecimate s).out = { s.out with steps := s.out.steps ++ ds } := by
  rcases tickDecimate_cases s with ⟨_, h⟩ | ⟨_, h⟩ <;> rw [h]
  · exact ⟨[], by simp, by simp⟩
  · exact tickAct_out _

theorem exec_tick_out {s t : State} (h : exec .tick s = .next t) :
    ∃ ds : List Dir, ds.length ≤ 1 ∧ t.out = { Output.idle with steps := ds } := by
  cases h
  simpa [tickCountdown_out] using tickDecimate_out (tickCountdown s.begin)

/-- A guarded command whose effect is on registers alone leaves the output ports idle (R140). -/
theorem whenIdle_out {s t : State} {effect : State → State}
    (h : whenIdle s effect = .next t) (he : (effect s.begin).out = Output.idle) :
    t.out = Output.idle := by
  rcases whenIdle_cases h with ⟨_, rfl⟩ | ⟨_, rfl⟩
  · rfl
  · exact he

/-- A command drives the reply port at most. -/
theorem exec_command_out {i : Instr} {w : BitVec 24} {s t : State} (hc : encode i = .cmd w)
    (h : exec i s = .next t) : ∃ r, t.out = { Output.idle with reply := r } := by
  cases i with
  | setPosition _ | setTarget _ | setFull _ | setHalf _ | setSdiv _ =>
    unfold exec at h
    exact ⟨none, whenIdle_out h rfl⟩
  | tick | cmd _ | persistTake | forceDisable | reset _ => cases hc
  | msenc1 | msenc2 | msenc4 | msenc8 | msenc16 | msenc32 => cases hc
  | _ =>
    cases h
    exact ⟨_, rfl⟩

/-- What each kind of instruction can put on the output ports: a command a reply, a `TICK` one pulse,
`PERSIST_TAKE` a snapshot, and every other instruction an encoder pattern at most. -/
theorem exec_out_cases {i : Instr} {s t : State} (h : exec i s = .next t) :
    ((∃ w, i = .cmd w ∨ encode i = .cmd w) ∧ ∃ r, t.out = { Output.idle with reply := r }) ∨
      (i = .tick ∧ ∃ ds : List Dir, ds.length ≤ 1 ∧ t.out = { Output.idle with steps := ds }) ∨
      (i = .persistTake ∧ t.out = { Output.idle with snap := some (snapshot s) }) ∨
      ∃ p, t.out = { Output.idle with pattern := p } := by
  cases i with
  | cmd w =>
    rw [exec_cmd] at h
    exact .inl ⟨⟨w, .inl rfl⟩, exec_command_out (encode_decodeCommand w) h⟩
  | tick => exact .inr (.inl ⟨rfl, exec_tick_out h⟩)
  | persistTake =>
    cases h
    exact .inr (.inr (.inl ⟨rfl, rfl⟩))
  | forceDisable | reset _ | msenc1 | msenc2 | msenc4 | msenc8 | msenc16 | msenc32 =>
    cases h
    exact .inr (.inr (.inr ⟨_, rfl⟩))
  | _ => exact .inl ⟨⟨_, .inr rfl⟩, exec_command_out rfl h⟩

/-- Settles O41, by the four kinds of instruction and the ports each may drive. -/
theorem outputsBelongToTheirEvents : Obligations.OutputsBelongToTheirEvents := by
  intro i s t h
  rcases exec_out_cases h with ⟨hcmd, r, ho⟩ | ⟨hi, ds, hlen, ho⟩ | ⟨hi, ho⟩ | ⟨p, ho⟩
  · simp [ho, hcmd]
  · simp [ho, hi, hlen]
  · simp [ho, hi]
  · simp [ho]

end Sys2Proof.Machine

/-! Proofs of the statements of 10_state.md: which register an instruction writes (R34), the motion
flag, the settings and the persist request, what no instruction reads or reaches, the pins (R36) and
the state after reset (R37). -/

namespace Sys2Proof.Machine

/-! ### The outcomes of a tick -/

/-- Step 1 writes the driver enable and the countdown alone (R121). -/
theorem tickCountdown_eq (s : State) :
    ∃ en req cnt, tickCountdown s = { s with drven := en, disreq := req, discnt := cnt } := by
  rcases tickCountdown_cases s with ⟨_, h⟩ | ⟨_, _, h⟩ | ⟨_, _, h⟩ <;> exact ⟨_, _, _, h⟩

/-- While moving the countdown is frozen (R121). -/
theorem tickCountdown_moving {s : State} (hm : s.moving = true) : tickCountdown s = s :=
  tickCountdown_of_not (by simp [countingDown, hm])

theorem acts_eq_true {s : State} : acts s = true ↔ ¬s.divcnt + 1#8 < s.sdiv := by simp [acts]

theorem acts_eq_false {s : State} : acts s = false ↔ s.divcnt + 1#8 < s.sdiv := by simp [acts]

theorem tickDecimate_waiting {s : State} (ha : acts s = false) :
    tickDecimate s = { s with divcnt := s.divcnt + 1#8 } := by
  rcases tickDecimate_cases s with ⟨_, h⟩ | ⟨hn, _⟩
  · exact h
  · exact absurd (acts_eq_false.1 ha) hn

theorem tickDecimate_acting {s : State} (ha : acts s = true) :
    tickDecimate s = tickAct { s with divcnt := 0#8 } := by
  rcases tickDecimate_cases s with ⟨hl, _⟩ | ⟨_, h⟩
  · exact absurd hl (acts_eq_true.1 ha)
  · exact h

/-- In `Idle` steps 2 to 6 are the decimator alone (R123, R124). -/
theorem tickDecimate_idle {s : State} (hm : s.moving = false) :
    tickDecimate s = { s with divcnt := if acts s then 0#8 else s.divcnt + 1#8 } := by
  cases ha : acts s with
  | false => simp [tickDecimate_waiting ha]
  | true => simp [tickDecimate_acting ha, tickAct_idle (s := { s with divcnt := 0#8 }) hm]

/-- A tick is the countdown, then the decimated rest (R120). -/
theorem exec_tick (s : State) : exec .tick s = .next (tickDecimate (tickCountdown s.begin)) := rfl

/-- A tick in `Idle`: the countdown and the decimator (R121, R123, R124). -/
theorem exec_tick_idle {s : State} (hm : s.moving = false) :
    exec .tick s =
      .next
        { tickCountdown s.begin with divcnt := if acts s then 0#8 else s.divcnt + 1#8 } := by
  obtain ⟨en, req, cnt, hc⟩ := tickCountdown_eq s.begin
  rw [exec_tick, hc, tickDecimate_idle (by exact hm)]
  rfl

/-- A tick that does not act while moving (R121, R123). -/
theorem exec_tick_waiting {s : State} (hm : s.moving = true) (ha : acts s = false) :
    exec .tick s = .next { s.begin with divcnt := s.divcnt + 1#8 } := by
  rw [exec_tick, tickCountdown_moving (s := s.begin) hm, tickDecimate_waiting (s := s.begin) ha]
  rfl

/-- An acting tick while moving is steps 4 to 6 (R123 to R127). -/
theorem exec_tick_acting {s : State} (hm : s.moving = true) (ha : acts s = true) :
    exec .tick s = .next (tickAct { s.begin with divcnt := 0#8 }) := by
  rw [exec_tick, tickCountdown_moving (s := s.begin) hm, tickDecimate_acting (s := s.begin) ha]

/-- The direction and the position of one step toward the target (R126). -/
inductive StepToward (s : State) : Dir → Word → Prop
  | fwd (h : s.pos < s.tgt) : StepToward s .fwd (s.pos + 1#16)
  | bwd (h : s.tgt < s.pos) : StepToward s .bwd (s.pos - 1#16)

theorem stepToward_of_ne {s : State} (hne : s.pos ≠ s.tgt) :
    StepToward s (if s.pos < s.tgt then .fwd else .bwd)
      (if s.pos < s.tgt then s.pos + 1#16 else s.pos - 1#16) := by
  by_cases h : s.pos < s.tgt
  · simpa [h] using StepToward.fwd h
  · have hb : s.tgt < s.pos := by
      have : s.pos.toNat ≠ s.tgt.toNat := fun he => hne (BitVec.eq_of_toNat_eq he)
      simp only [BitVec.lt_def] at h ⊢
      omega
    simpa [h] using StepToward.bwd hb

/-- All that a tick can do: in `Idle` the countdown and the decimator; while moving the decimator, the
arrival with no step, or one step with the arrival when it reaches the target. -/
theorem exec_tick_cases {s t : State} (h : exec .tick s = .next t) :
    (s.moving = false ∧
        t = { tickCountdown s.begin with divcnt := if acts s then 0#8 else s.divcnt + 1#8 }) ∨
      (s.moving = true ∧ acts s = false ∧ t = { s.begin with divcnt := s.divcnt + 1#8 }) ∨
      (s.moving = true ∧ acts s = true ∧ s.pos = s.tgt ∧
        t =
          { s.begin with
            divcnt := 0#8
            moving := false
            preq := true
            disreq := true
            discnt := Config.disableDelayTicks }) ∨
      (s.moving = true ∧ acts s = true ∧ ∃ d p, StepToward s d p ∧
        t =
          { s.begin with
            divcnt := 0#8
            drven := true
            dir := d
            pos := p
            moving := decide (p ≠ s.tgt)
            preq := s.preq || decide (p = s.tgt)
            disreq := s.disreq || decide (p = s.tgt)
            discnt := if p = s.tgt then Config.disableDelayTicks else s.discnt
            out := { Output.idle with steps := [d] } }) := by
  cases hm : s.moving with
  | false =>
    cases (exec_tick_idle hm).symm.trans h
    exact .inl ⟨rfl, rfl⟩
  | true =>
    cases ha : acts s with
    | false =>
      cases (exec_tick_waiting hm ha).symm.trans h
      exact .inr (.inl ⟨rfl, rfl, rfl⟩)
    | true =>
      cases (exec_tick_acting hm ha).symm.trans h
      by_cases he : s.pos = s.tgt
      · exact .inr (.inr (.inl ⟨rfl, rfl, he, tickAct_atTarget hm he⟩))
      · exact .inr (.inr (.inr ⟨rfl, rfl, _, _, stepToward_of_ne he, tickAct_away hm he⟩))

/-! ### The distance to the target (R21, R126) -/

theorem StepToward.toNat {s : State} {d : Dir} {p : Word} (h : StepToward s d p) :
    (s.pos.toNat < s.tgt.toNat ∧ p.toNat = s.pos.toNat + 1) ∨
      (s.tgt.toNat < s.pos.toNat ∧ p.toNat + 1 = s.pos.toNat) := by
  have hp := s.pos.isLt
  have ht := s.tgt.isLt
  cases h with
  | fwd h =>
    left
    rw [BitVec.lt_def] at h
    simp only [BitVec.toNat_add, BitVec.toNat_ofNat]
    omega
  | bwd h =>
    right
    rw [BitVec.lt_def] at h
    simp only [BitVec.toNat_sub, BitVec.toNat_ofNat]
    omega

theorem exec_tick_pos {s t : State} (h : exec .tick s = .next t) :
    t.tgt = s.tgt ∧ (t.pos = s.pos ∨ ∃ d, StepToward s d t.pos) := by
  rcases exec_tick_cases h with ⟨_, rfl⟩ | ⟨_, _, rfl⟩ | ⟨_, _, _, rfl⟩ | ⟨_, _, d, p, hp, rfl⟩
  · obtain ⟨en, req, cnt, hc⟩ := tickCountdown_eq s.begin
    simp [hc]
  · simp
  · simp
  · exact ⟨rfl, .inr ⟨d, hp⟩⟩

/-- Settles O19: a step toward the target stays between `POS` and `TGT`, so neither of its two sums
wraps. -/
theorem positionNeverWraps : Obligations.PositionNeverWraps := by
  intro s t h
  obtain ⟨htgt, hpos | ⟨d, hstep⟩⟩ := exec_tick_pos h
  · exact ⟨.inl hpos, .inl hpos⟩
  · refine ⟨.inr hstep.toNat, .inr ?_⟩
    have hnat := hstep.toNat
    unfold distance
    rw [htgt]
    omega

/-! ### Commands and events -/

/-- A command, given by its word or as an instruction, and the events that are none (R71, R105). -/
theorem command_or_event (i : Instr) :
    (∃ w, i = .cmd w ∨ encode i = .cmd w) ∨ i = .tick ∨ i = .persistTake ∨ i = .forceDisable ∨
      (∃ init, i = .reset init) ∨ ∃ l, i = msencInstr l := by
  cases i with
  | tick => simp
  | cmd w => exact .inl ⟨w, .inl rfl⟩
  | persistTake => simp
  | forceDisable => simp
  | reset init => simp
  | msenc1 => exact .inr (.inr (.inr (.inr (.inr ⟨.x1, rfl⟩))))
  | msenc2 => exact .inr (.inr (.inr (.inr (.inr ⟨.x2, rfl⟩))))
  | msenc4 => exact .inr (.inr (.inr (.inr (.inr ⟨.x4, rfl⟩))))
  | msenc8 => exact .inr (.inr (.inr (.inr (.inr ⟨.x8, rfl⟩))))
  | msenc16 => exact .inr (.inr (.inr (.inr (.inr ⟨.x16, rfl⟩))))
  | msenc32 => exact .inr (.inr (.inr (.inr (.inr ⟨.x32, rfl⟩))))
  | _ => exact .inl ⟨_, .inr rfl⟩

@[simp] theorem exec_msencInstr (l : Level) (s : State) :
    exec (msencInstr l) s = .next (showPattern l s.begin) := by
  cases l <;> rfl

theorem writes_decodeCommand (w : BitVec 24) : writes (decodeCommand w) = writes (.cmd w) := by
  change _ = commandWrites (opOf (opField w))
  unfold decodeCommand
  cases opOf (opField w) <;> rfl

/-- A command given by its word is the one that the word encodes (R73, R74). -/
theorem exists_encoded_command {i : Instr} {w : BitVec 24} (hi : i = .cmd w ∨ encode i = .cmd w) :
    ∃ j, encode j = .cmd w ∧ exec i = exec j ∧ writes i = writes j := by
  rcases hi with rfl | hc
  · exact ⟨decodeCommand w, encode_decodeCommand w, funext (exec_cmd w),
      (writes_decodeCommand w).symm⟩
  · exact ⟨i, hc, rfl, rfl⟩

/-- What holds of a rejected command's state and of the effect's holds after a guarded command
(R140). -/
theorem whenIdle_elim {P : State → Prop} {s t : State} {effect : State → State}
    (h : whenIdle s effect = .next t) (hrej : P s.begin) (heff : P (effect s.begin)) : P t := by
  rcases whenIdle_cases h with ⟨_, rfl⟩ | ⟨_, rfl⟩
  · exact hrej
  · exact heff

/-- While moving, a command word of an operation with the precondition "not moving" changes nothing
(R140). -/
theorem exec_rejected {i : Instr} {w : BitVec 24} {s : State} (hi : i = .cmd w ∨ encode i = .cmd w)
    (hn : needsIdle (opOf (opField w)) = true) (hm : s.moving = true) :
    exec i s = .next s.begin := by
  obtain ⟨j, hc, he, _⟩ := exists_encoded_command hi
  rw [he]
  cases j with
  | setPosition _ | setTarget _ | setFull _ | setHalf _ | setSdiv _ =>
    unfold exec
    exact whenIdle_moving _ hm
  | tick | cmd _ | persistTake | forceDisable | reset _ => cases hc
  | msenc1 | msenc2 | msenc4 | msenc8 | msenc16 | msenc32 => cases hc
  | unrecognized _ _ => rfl
  | _ =>
    cases hc
    rw [opField_commandWord] at hn
    cases hn

/-! ### What an instruction writes (R34) -/

theorem sameRegister_of_out (r : Register) (s : State) (o : Output) :
    SameRegister r s { s with out := o } := by
  cases r <;> rfl

theorem exec_command_frame {i : Instr} {w : BitVec 24} {s t : State} {r : Register}
    (hi : i = .cmd w ∨ encode i = .cmd w) (h : exec i s = .next t) (hr : r ∉ writes i) :
    SameRegister r s t := by
  obtain ⟨j, hc, he, hw⟩ := exists_encoded_command hi
  rw [he] at h
  rw [hw] at hr
  cases j with
  | setPosition _ | setTarget _ | setFull _ | setHalf _ | setSdiv _ =>
    unfold exec at h
    refine whenIdle_elim h (sameRegister_of_out r s _) ?_
    cases r <;> simp_all [writes, commandWrites, SameRegister]
  | stop _ | go _ | holdOn _ | holdOff _ =>
    cases h
    cases r <;> simp_all [writes, commandWrites, SameRegister]
  | tick | cmd _ | persistTake | forceDisable | reset _ => cases hc
  | msenc1 | msenc2 | msenc4 | msenc8 | msenc16 | msenc32 => cases hc
  | _ =>
    cases h
    exact sameRegister_of_out r s _

theorem exec_tick_settings {s t : State} (h : exec .tick s = .next t) :
    t.tgt = s.tgt ∧ t.fine = s.fine ∧ t.sdiv = s.sdiv ∧ t.hold = s.hold := by
  rcases exec_tick_cases h with ⟨_, rfl⟩ | ⟨_, _, rfl⟩ | ⟨_, _, _, rfl⟩ | ⟨_, _, _, _, _, rfl⟩
  · obtain ⟨en, req, cnt, hc⟩ := tickCountdown_eq s.begin
    simp [hc]
  · simp
  · simp
  · simp

/-- A register that is not listed for an instruction keeps its value (R34). -/
theorem exec_frame {i : Instr} {s t : State} {r : Register} (h : exec i s = .next t)
    (hr : r ∉ writes i) : SameRegister r s t := by
  rcases command_or_event i with ⟨w, hi⟩ | rfl | rfl | rfl | ⟨init, rfl⟩ | ⟨l, rfl⟩
  · exact exec_command_frame hi h hr
  · obtain ⟨htgt, hfine, hsdiv, hhold⟩ := exec_tick_settings h
    cases r <;> simp_all [writes, SameRegister]
  · cases h
    cases r <;> simp_all [writes, SameRegister]
  · cases h
    cases r <;> simp_all [writes, SameRegister]
  · cases r <;> simp [writes] at hr
  · cases (exec_msencInstr l s).symm.trans h
    exact sameRegister_of_out r s _

/-- Settles O40, by the frame of every instruction and the rejection while moving. -/
theorem writeAccessTable : Obligations.WriteAccessTable := by
  intro i s t r h
  refine ⟨exec_frame h, fun w hi hn hm => ?_⟩
  cases (exec_rejected hi hn hm).symm.trans h
  exact sameRegister_of_out r s _

/-! ### The motion flag (R42) -/

theorem exec_command_moving {i : Instr} {w : BitVec 24} {s t : State}
    (hi : i = .cmd w ∨ encode i = .cmd w) (h : exec i s = .next t) :
    t.moving = s.moving ∨ (opField w = 0x05#8 ∧ t.moving = true) ∨
      (opField w = 0x00#8 ∧ t.moving = false) := by
  obtain ⟨j, hc, he, _⟩ := exists_encoded_command hi
  rw [he] at h
  cases j with
  | go _ =>
    cases hc
    cases h
    simp
  | stop _ =>
    cases hc
    cases h
    simp
  | tick | cmd _ | persistTake | forceDisable | reset _ => cases hc
  | msenc1 | msenc2 | msenc4 | msenc8 | msenc16 | msenc32 => cases hc
  | _ => exact .inl (exec_command_frame (r := .moving) (.inr hc) h (by simp [writes, commandWrites]))

theorem exec_tick_moving {s t : State} (h : exec .tick s = .next t) :
    t.moving = s.moving ∨ (t.moving = false ∧ t.pos = t.tgt) := by
  rcases exec_tick_cases h with ⟨_, rfl⟩ | ⟨_, _, rfl⟩ | ⟨_, _, he, rfl⟩ | ⟨hm, _, _, p, _, rfl⟩
  · obtain ⟨en, req, cnt, hc⟩ := tickCountdown_eq s.begin
    simp [hc]
  · simp
  · exact .inr ⟨rfl, he⟩
  · by_cases hp : p = s.tgt <;> simp [hp, hm]

/-- Settles O43: only `GO` sets the flag, and only `STOP`, an arriving tick and `RESET` clear it. -/
theorem motionFlagTransitions : Obligations.MotionFlagTransitions := by
  intro i s t h
  rcases command_or_event i with ⟨w, hi⟩ | rfl | rfl | rfl | ⟨init, rfl⟩ | ⟨l, rfl⟩
  · rcases exec_command_moving hi h with hsame | ⟨hop, ht⟩ | ⟨hop, ht⟩
    · simp +contextual [hsame]
    · exact ⟨fun _ _ => ⟨w, hi, hop⟩, by simp [ht]⟩
    · exact ⟨by simp [ht], fun _ _ => .inl ⟨w, hi, hop⟩⟩
  · rcases exec_tick_moving h with hsame | ⟨ht, hpos⟩
    · simp +contextual [hsame]
    · exact ⟨by simp [ht], fun _ _ => .inr (.inl ⟨rfl, hpos⟩)⟩
  · cases h
    simp +contextual
  · cases h
    simp +contextual
  · cases h
    simp
  · cases (exec_msencInstr l s).symm.trans h
    simp +contextual

/-! ### The settings while moving (R22, R24, R25, R140) -/

theorem exec_command_settings {i : Instr} {w : BitVec 24} {s t : State}
    (hi : i = .cmd w ∨ encode i = .cmd w) (h : exec i s = .next t) (hm : s.moving = true) :
    t.fine = s.fine ∧ t.sdiv = s.sdiv ∧ (t.tgt = s.tgt ∨ t.tgt = s.pos) := by
  obtain ⟨j, hc, he, _⟩ := exists_encoded_command hi
  rw [he] at h
  cases j with
  | setPosition _ | setTarget _ | setFull _ | setHalf _ | setSdiv _ =>
    unfold exec at h
    cases (whenIdle_moving _ hm).symm.trans h
    simp
  | tick | cmd _ | persistTake | forceDisable | reset _ => cases hc
  | msenc1 | msenc2 | msenc4 | msenc8 | msenc16 | msenc32 => cases hc
  | _ =>
    cases h
    simp

theorem exec_settings {i : Instr} {s t : State} (h : exec i s = .next t) (hm : s.moving = true)
    (hreset : ∀ init, i ≠ .reset init) :
    t.fine = s.fine ∧ t.sdiv = s.sdiv ∧ (t.tgt = s.tgt ∨ t.tgt = s.pos) := by
  rcases command_or_event i with ⟨w, hi⟩ | rfl | rfl | rfl | ⟨init, rfl⟩ | ⟨l, rfl⟩
  · exact exec_command_settings hi h hm
  · obtain ⟨htgt, hfine, hsdiv, _⟩ := exec_tick_settings h
    exact ⟨hfine, hsdiv, .inl htgt⟩
  · cases h
    simp
  · cases h
    simp
  · exact absurd rfl (hreset init)
  · cases (exec_msencInstr l s).symm.trans h
    simp

/-- Settles O44: the set commands are rejected while moving, and `ms_sel` follows `FINE` alone. -/
theorem settingsFixedWhileMoving : Obligations.SettingsFixedWhileMoving := by
  intro i s t h hm hreset
  obtain ⟨hfine, hsdiv, htgt⟩ := exec_settings h hm hreset
  exact ⟨hfine, hsdiv, by simp [msSelPins, hfine], htgt⟩

/-! ### The persist request (R28) -/

theorem exec_command_keeps_preq {i : Instr} {w : BitVec 24} {s t : State}
    (hi : i = .cmd w ∨ encode i = .cmd w) (h : exec i s = .next t) (hp : s.preq = true) :
    t.preq = true := by
  obtain ⟨j, hc, he, _⟩ := exists_encoded_command hi
  rw [he] at h
  cases j with
  | setPosition _ | setTarget _ | setFull _ | setHalf _ | setSdiv _ =>
    unfold exec at h
    exact whenIdle_elim (P := fun u => u.preq = true) h hp (by simp [hp])
  | tick | cmd _ | persistTake | forceDisable | reset _ => cases hc
  | msenc1 | msenc2 | msenc4 | msenc8 | msenc16 | msenc32 => cases hc
  | _ =>
    cases h
    simp [hp]

theorem exec_tick_keeps_preq {s t : State} (h : exec .tick s = .next t) (hp : s.preq = true) :
    t.preq = true := by
  rcases exec_tick_cases h with ⟨_, rfl⟩ | ⟨_, _, rfl⟩ | ⟨_, _, _, rfl⟩ | ⟨_, _, _, _, _, rfl⟩
  · obtain ⟨en, req, cnt, hc⟩ := tickCountdown_eq s.begin
    simp [hc, hp]
  · simp [hp]
  · simp
  · simp [hp]

/-- Settles O45: commands and ticks write `PREQ` to 1 at most, and the snapshot is taken in the
transition that clears it (R200). -/
theorem persistRequestIsNotLost : Obligations.PersistRequestIsNotLost := by
  intro i s t h hp ht
  rcases command_or_event i with ⟨w, hi⟩ | rfl | rfl | rfl | ⟨init, rfl⟩ | ⟨l, rfl⟩
  · simp [exec_command_keeps_preq hi h hp] at ht
  · simp [exec_tick_keeps_preq h hp] at ht
  · cases h
    exact .inl ⟨rfl, rfl⟩
  · cases h
    simp [hp] at ht
  · exact .inr ⟨init, rfl⟩
  · cases (exec_msencInstr l s).symm.trans h
    simp [hp] at ht

/-! ### What no instruction reads (R32) -/

theorem whenIdle_setDir {s t : State} {effect : State → State} (d : Dir)
    (h : whenIdle s effect = .next t)
    (he : ∀ u, effect { u with dir := d } = { effect u with dir := d }) :
    whenIdle { s with dir := d } effect = .next { t with dir := d } := by
  rcases whenIdle_cases h with ⟨hm, rfl⟩ | ⟨hm, rfl⟩
  · exact whenIdle_moving (s := { s with dir := d }) effect hm
  · rw [whenIdle_idle (s := { s with dir := d }) effect hm]
    exact congrArg _ (he s.begin)

theorem exec_command_setDir {i : Instr} {w : BitVec 24} {s t : State} (d : Dir)
    (hi : i = .cmd w ∨ encode i = .cmd w) (h : exec i s = .next t) :
    exec i { s with dir := d } = .next { t with dir := d } := by
  obtain ⟨j, hc, he, _⟩ := exists_encoded_command hi
  rw [he] at h ⊢
  cases j with
  | setPosition _ | setTarget _ | setFull _ | setHalf _ | setSdiv _ =>
    unfold exec at h ⊢
    exact whenIdle_setDir d h fun _ => rfl
  | tick | cmd _ | persistTake | forceDisable | reset _ => cases hc
  | msenc1 | msenc2 | msenc4 | msenc8 | msenc16 | msenc32 => cases hc
  | _ =>
    cases h
    rfl

theorem tickCountdown_setDir (s : State) (d : Dir) :
    tickCountdown { s with dir := d } = { tickCountdown s with dir := d } := by
  have hcd : countingDown { s with dir := d } = countingDown s := rfl
  unfold tickCountdown
  rw [hcd]
  split
  · split
    · split <;> rfl
    · rfl
  · rfl

theorem tickAct_setDir (s : State) (d : Dir) :
    ∃ d', tickAct { s with dir := d } = { tickAct s with dir := d' } := by
  rcases Bool.eq_false_or_eq_true s.moving with hm | hm
  · by_cases he : s.pos = s.tgt
    · rw [tickAct_atTarget hm he, tickAct_atTarget (s := { s with dir := d }) hm he]
      exact ⟨d, rfl⟩
    · rw [tickAct_away hm he, tickAct_away (s := { s with dir := d }) hm he]
      exact ⟨_, rfl⟩
  · rw [tickAct_idle hm, tickAct_idle (s := { s with dir := d }) hm]
    exact ⟨d, rfl⟩

theorem tickDecimate_setDir (s : State) (d : Dir) :
    ∃ d', tickDecimate { s with dir := d } = { tickDecimate s with dir := d' } := by
  rcases Bool.eq_false_or_eq_true (acts s) with ha | ha
  · rw [tickDecimate_acting ha, tickDecimate_acting (s := { s with dir := d }) ha]
    exact tickAct_setDir { s with divcnt := 0#8 } d
  · rw [tickDecimate_waiting ha, tickDecimate_waiting (s := { s with dir := d }) ha]
    exact ⟨d, rfl⟩

theorem exec_tick_setDir {s t : State} (d : Dir) (h : exec .tick s = .next t) :
    ∃ d', exec .tick { s with dir := d } = .next { t with dir := d' } := by
  cases h
  obtain ⟨d', hd⟩ := tickDecimate_setDir (tickCountdown s.begin) d
  refine ⟨d', congrArg Host.Outcome.next ?_⟩
  rw [← hd, ← tickCountdown_setDir]
  rfl

/-- Settles O46: every instruction but an acting tick and `RESET` leaves the other direction as it
is, and those two overwrite it. -/
theorem directionIsNeverRead : Obligations.DirectionIsNeverRead := by
  intro i s t d h
  rcases command_or_event i with ⟨w, hi⟩ | rfl | rfl | rfl | ⟨init, rfl⟩ | ⟨l, rfl⟩
  · exact ⟨d, exec_command_setDir d hi h⟩
  · exact exec_tick_setDir d h
  · cases h
    exact ⟨d, rfl⟩
  · cases h
    exact ⟨d, rfl⟩
  · cases h
    exact ⟨_, rfl⟩
  · cases (exec_msencInstr l s).symm.trans h
    exact ⟨d, exec_msencInstr l _⟩

/-! ### What no instruction reaches (R33, R50, R51) -/

/-- The environment's part of the state is the same in two states. -/
def SameEnvironment (s t : State) : Prop :=
  t.nv = s.nv ∧ t.saving = s.saving ∧ t.rx = s.rx ∧ t.lastCommand = s.lastCommand ∧
    t.now = s.now ∧ t.inputs = s.inputs

theorem exec_command_environment {i : Instr} {w : BitVec 24} {s t : State}
    (hi : i = .cmd w ∨ encode i = .cmd w) (h : exec i s = .next t) : SameEnvironment s t := by
  obtain ⟨j, hc, he, _⟩ := exists_encoded_command hi
  rw [he] at h
  cases j with
  | setPosition _ | setTarget _ | setFull _ | setHalf _ | setSdiv _ =>
    unfold exec at h
    exact whenIdle_elim h (by simp [SameEnvironment]) (by simp [SameEnvironment])
  | tick | cmd _ | persistTake | forceDisable | reset _ => cases hc
  | msenc1 | msenc2 | msenc4 | msenc8 | msenc16 | msenc32 => cases hc
  | _ =>
    cases h
    simp [SameEnvironment]

theorem exec_tick_environment {s t : State} (h : exec .tick s = .next t) : SameEnvironment s t := by
  rcases exec_tick_cases h with ⟨_, rfl⟩ | ⟨_, _, rfl⟩ | ⟨_, _, _, rfl⟩ | ⟨_, _, _, _, _, rfl⟩
  · obtain ⟨en, req, cnt, hc⟩ := tickCountdown_eq s.begin
    simp [SameEnvironment, hc]
  · simp [SameEnvironment]
  · simp [SameEnvironment]
  · simp [SameEnvironment]

theorem exec_environment {i : Instr} {s t : State} (h : exec i s = .next t) :
    SameEnvironment s t := by
  rcases command_or_event i with ⟨w, hi⟩ | rfl | rfl | rfl | ⟨init, rfl⟩ | ⟨l, rfl⟩
  · exact exec_command_environment hi h
  · exact exec_tick_environment h
  · cases h
    simp [SameEnvironment]
  · cases h
    simp [SameEnvironment]
  · cases h
    simp [SameEnvironment]
  · cases (exec_msencInstr l s).symm.trans h
    simp [SameEnvironment]

/-- Settles O47, by the frame of every instruction on the environment. -/
theorem eventsLeaveEnvironment : Obligations.EventsLeaveEnvironment := by
  intro i s t h
  obtain ⟨hnv, hrest⟩ := exec_environment h
  exact ⟨fun a => by rw [hnv], hnv, hrest⟩

/-! ### Reset and the pins (R36, R37, R208) -/

/-- Settles O12: the fields of `State.reset` as they are defined. -/
theorem resetStateRegisters : Obligations.ResetStateRegisters :=
  ⟨rfl, rfl, rfl, rfl, rfl, rfl, rfl, rfl, rfl, rfl, rfl, rfl⟩

theorem enPin_eq_active_iff (s : State) : enPin s = Config.enActiveLevel ↔ s.drven = true := by
  unfold enPin
  cases s.drven <;> simp

theorem dirPin_eq_fwdLevel_iff (s : State) : dirPin s = Config.dirFwdLevel ↔ s.dir = .fwd := by
  unfold dirPin
  cases s.dir <;> simp

/-- Settles O39: `en` and `dir` by the two values of their registers, the rest by definition. -/
theorem pinsFollowRegisters : Obligations.PinsFollowRegisters := fun s =>
  ⟨enPin_eq_active_iff s, dirPin_eq_fwdLevel_iff s, rfl, rfl, rfl⟩

/-- Settles O49: no disable is pending, the driver is off, and storage is what `load()` leaves of
empty storage. -/
theorem invariantAtReset : Obligations.InvariantAtReset where
  countdown := ⟨nofun, fun _ => rfl⟩
  decimator := Nat.zero_le 254
  driver := fun _ _ _ => rfl
  storage := loadMemory_wf rfl
  receiver := nofun
  time := Nat.le_refl 0

end Sys2Proof.Machine

/-! Proofs of the statements of 20_memory.md: the invariant of a run (R38, R39, R51, R203, R207), and
what `save()` writes (R62, R209). -/

namespace Sys2Proof.Machine

/-! ### The registers of the invariant (R38, R39) -/

theorem countdownOk_of_armed {s : State} (hreq : s.disreq = true)
    (hcnt : s.discnt = Config.disableDelayTicks) : CountdownOk s := by
  simp [CountdownOk, hreq, hcnt, one_le_disableDelayTicks]

theorem countdownOk_of_clear {s : State} (hreq : s.disreq = false) (hcnt : s.discnt = 0) :
    CountdownOk s := by
  simp [CountdownOk, hreq, hcnt]

theorem driverOk_of_pending {s : State} (hreq : s.disreq = true) : DriverOk s := by
  simp [DriverOk, hreq]

theorem decimatorOk_of_acts_eq_false {s : State} (ha : acts s = false) :
    (s.divcnt + 1#8).toNat ≤ 254 := by
  have hlt := BitVec.lt_def.1 (acts_eq_false.1 ha)
  have hsdiv := s.sdiv.isLt
  omega

/-- The decimator's next value (R123) is 0 or below `SDIV`. -/
theorem decimated_le (s : State) : (if acts s then 0#8 else s.divcnt + 1#8).toNat ≤ 254 := by
  cases ha : acts s with
  | false => exact decimatorOk_of_acts_eq_false ha
  | true => exact Nat.zero_le 254

/-- The invariant says nothing of the output ports. -/
theorem Inv.begin {s : State} (hs : Inv s) : Inv s.begin := { hs with }

/-! ### Instructions -/

theorem exec_command_keeps_inv {i : Instr} {w : BitVec 24} {s t : State}
    (hi : i = .cmd w ∨ encode i = .cmd w) (h : exec i s = .next t) (hs : Inv s) : Inv t := by
  obtain ⟨j, hc, he, _⟩ := exists_encoded_command hi
  rw [he] at h
  cases j with
  | setPosition _ | setTarget _ | setFull _ | setHalf _ | setSdiv _ =>
    unfold exec at h
    exact whenIdle_elim h { hs with } { hs with }
  | stop _ | holdOff _ =>
    cases h
    exact { hs with countdown := countdownOk_of_armed rfl rfl, driver := driverOk_of_pending rfl }
  | go _ =>
    cases h
    exact { hs with driver := nofun }
  | holdOn _ =>
    cases h
    exact { hs with driver := fun _ hhold => nomatch hhold }
  | tick | cmd _ | persistTake | forceDisable | reset _ => cases hc
  | msenc1 | msenc2 | msenc4 | msenc8 | msenc16 | msenc32 => cases hc
  | _ =>
    cases h
    exact { hs with }

/-- The countdown that ends turns the driver off unless `HOLD` is set; one that goes on stays pending
(R121). -/
theorem tickCountdown_keeps_inv {s : State} (hs : Inv s) : Inv (tickCountdown s) := by
  rcases tickCountdown_cases s with ⟨_, he⟩ | ⟨_, _, he⟩ | ⟨hc, hge, he⟩ <;> rw [he]
  · exact hs
  · exact { hs with
      countdown := countdownOk_of_clear rfl rfl
      driver := fun _ (hhold : s.hold = false) _ => by simp [hhold] }
  · obtain ⟨_, hreq⟩ : s.moving = false ∧ s.disreq = true := by simpa [countingDown] using hc
    obtain ⟨_, hle⟩ := hs.countdown.1 hreq
    have hcnt : 1 ≤ s.discnt - 1 ∧ s.discnt - 1 ≤ Config.disableDelayTicks := by omega
    exact { hs with countdown := by simpa [CountdownOk, hreq] using hcnt }

theorem exec_tick_keeps_inv {s t : State} (h : exec .tick s = .next t) (hs : Inv s) : Inv t := by
  rcases exec_tick_cases h with
    ⟨_, rfl⟩ | ⟨_, ha, rfl⟩ | ⟨_, _, _, rfl⟩ | ⟨_, _, d, p, _, rfl⟩
  · exact { tickCountdown_keeps_inv hs.begin with decimator := decimated_le s }
  · exact { hs with decimator := decimatorOk_of_acts_eq_false ha }
  · exact { hs with
      countdown := countdownOk_of_armed rfl rfl
      decimator := Nat.zero_le 254
      driver := driverOk_of_pending rfl }
  · by_cases hp : p = s.tgt
    · simp only [hp, if_true, decide_true, Bool.or_true]
      exact { hs with
        countdown := countdownOk_of_armed rfl rfl
        decimator := Nat.zero_le 254
        driver := driverOk_of_pending rfl }
    · simp only [hp, ne_eq, not_false_eq_true, if_false, decide_true, decide_false, Bool.or_false]
      exact { hs with decimator := Nat.zero_le 254, driver := nofun }

theorem exec_keeps_inv {i : Instr} {s t : State} (h : exec i s = .next t) (hs : Inv s) : Inv t := by
  rcases command_or_event i with ⟨w, hi⟩ | rfl | rfl | rfl | ⟨init, rfl⟩ | ⟨l, rfl⟩
  · exact exec_command_keeps_inv hi h hs
  · exact exec_tick_keeps_inv h hs
  · cases h
    exact { hs with }
  · cases h
    exact { hs with driver := fun _ _ _ => rfl }
  · cases h
    exact { hs with
      countdown := countdownOk_of_clear rfl rfl
      decimator := Nat.zero_le 254
      driver := fun _ _ _ => rfl }
  · cases (exec_msencInstr l s).symm.trans h
    exact { hs with }

theorem runEvents_keeps_inv {is : List Instr} {s t : State} (h : runEvents is s = .next t)
    (hs : Inv s) : Inv t := by
  induction is generalizing s t with
  | nil =>
    cases h
    exact hs.begin
  | cons i rest ih =>
    obtain ⟨u, hu, h⟩ := andThen_eq_next h
    obtain ⟨v, hv, h⟩ := andThen_eq_next h
    cases h
    exact { ih hv (exec_keeps_inv hu hs) with }

/-! ### The environment -/

/-- The time noted is the present one (R207). -/
theorem noteCommand_keeps_inv {b : Bool} {s : State} (hs : Inv s) : Inv (noteCommand b s) := by
  cases b with
  | false => exact hs
  | true => exact { hs with time := Nat.le_refl _ }

theorem envDispatch_keeps_inv {content : List Byte} {s t : State}
    (h : envDispatch content s = .next t) (hs : Inv s) : Inv t := by
  unfold envDispatch at h
  split at h
  · cases h
    exact noteCommand_keeps_inv { hs with }
  · obtain ⟨u, hu, h⟩ := andThen_eq_next h
    cases h
    exact noteCommand_keeps_inv { exec_keeps_inv hu { hs with } with }

theorem envSerialByte_keeps_inv {b : Byte} {s t : State} (h : envSerialByte b s = .next t)
    (hs : Inv s) : Inv t := by
  have hlen : ∀ content, (rxByte s.draws s.rx b).1 = .collecting content →
      content.length ≤ bufferCapacity := fun _ => rxByte_length
  unfold envSerialByte at h
  split at h
  · rename_i hrx
    rw [hrx] at hlen
    cases h
    exact noteCommand_keeps_inv { hs with receiver := hlen }
  · rename_i hrx
    rw [hrx] at hlen
    exact envDispatch_keeps_inv h { hs with receiver := hlen }

theorem envService_keeps_inv {s t : State} (h : envService s = .next t) (hs : Inv s) : Inv t := by
  unfold envService at h
  split at h
  · obtain ⟨u, hu, h⟩ := andThen_eq_next h
    cases h
    exact { exec_keeps_inv hu hs with }
  · cases h
    exact hs.begin

theorem envSave_keeps_inv {s t : State} (h : envSave s = .next t) (hs : Inv s) : Inv t := by
  unfold envSave at h
  split at h <;> cases h
  · exact hs.begin
  · exact { hs with storage := saveCells_wf (fun _ hc => recordCells_offset hc) hs.storage }

theorem envCheckDisconnect_keeps_inv {s t : State} (h : envCheckDisconnect s = .next t)
    (hs : Inv s) : Inv t := by
  unfold envCheckDisconnect at h
  split at h
  · exact exec_keeps_inv h hs
  · cases h
    exact hs.begin

theorem envPowerUp_keeps_inv {s t : State} (h : envPowerUp s = .next t) (hs : Inv s) : Inv t := by
  obtain ⟨u, hu, h⟩ := andThen_eq_next h
  cases h
  exact { exec_keeps_inv hu hs with
    storage := loadMemory_wf hs.storage
    receiver := nofun
    time := Nat.le_refl 0 }

/-- Whatever bytes of a `save()` were written before the power loss, storage is canonical (U11). -/
theorem tornSave_wf (written : BitVec 6) (saving : Option (BitVec 26)) {m : Memory}
    (h : Memory.wf m = true) : Memory.wf (tornSave written saving m) = true := by
  cases saving with
  | none => exact h
  | some w => exact writeCells_wf (fun _ hc => recordCells_offset (List.mem_of_mem_filter hc)) h

theorem perform_keeps_inv {x : Input} {s t : State} (h : perform x s = .next t) (hs : Inv s) :
    Inv t := by
  cases x with
  | clock c => exact runEvents_keeps_inv h hs
  | setResolution l => exact exec_keeps_inv h hs
  | serialByte b => exact envSerialByte_keeps_inv h hs
  | service => exact envService_keeps_inv h hs
  | save => exact envSave_keeps_inv h hs
  | checkDisconnect => exact envCheckDisconnect_keeps_inv h hs
  | elapse d =>
    cases h
    exact { hs with time := Nat.le_add_right_of_le hs.time }
  | powerUp => exact envPowerUp_keeps_inv h hs
  | powerLoss written =>
    exact envPowerUp_keeps_inv h { hs with storage := tornSave_wf written s.saving hs.storage }

/-- Settles O48: each input's effect is built from `exec`, which keeps the invariant, and from updates
of the environment that keep its clauses. -/
theorem stepKeepsInvariant : Obligations.StepKeepsInvariant := by
  intro s t hs h
  cases hi : s.inputs with
  | nil =>
    cases (step_of_no_input hi).symm.trans h
    exact hs.begin
  | cons x rest => exact perform_keeps_inv ((step_of_input hi).symm.trans h) { hs with }

/-! ### What `save()` writes (R62, R209) -/

theorem saveCells_cons_stored {a : Nat} {b : Byte} {rest : List Host.Cell} {m : Memory}
    (h : Memory.read m a = b) : saveCells ((a, b) :: rest) m = saveCells rest m := by
  simp [saveCells, h]

theorem saveCells_cons_changed {a : Nat} {b : Byte} {rest : List Host.Cell} {m : Memory}
    (h : Memory.read m a ≠ b) :
    saveCells ((a, b) :: rest) m =
      ((saveCells rest (Memory.write m a b)).1,
        (a, b) :: (saveCells rest (Memory.write m a b)).2) := by
  simp [saveCells, h]

theorem recordCells_nodup (w : BitVec 26) : ((recordCells w).map Prod.fst).Nodup :=
  show [0, 1, 2, 3, 4, 5].Nodup by decide

/-- A byte that the loop writes differs from the stored one: it goes over each offset once, so no
earlier write of its own comes between. -/
theorem saveCells_writes_changed {cells : List Host.Cell} {c : Host.Cell} :
    ∀ {m : Memory}, (cells.map Prod.fst).Nodup → c ∈ (saveCells cells m).2 →
      c ∈ cells ∧ Memory.read m c.1 ≠ c.2 := by
  induction cells with
  | nil => exact fun _ hc => nomatch hc
  | cons x rest ih =>
    intro m hnd hc
    obtain ⟨a, b⟩ := x
    obtain ⟨hfresh, hnd⟩ := List.nodup_cons.1 hnd
    by_cases hb : Memory.read m a = b
    · rw [saveCells_cons_stored hb] at hc
      exact (ih hnd hc).imp_left (List.mem_cons_of_mem _)
    · rw [saveCells_cons_changed hb] at hc
      rcases List.mem_cons.1 hc with rfl | hc
      · exact ⟨List.mem_cons_self, hb⟩
      · obtain ⟨hmem, hread⟩ := ih hnd hc
        have hne : c.1 ≠ a := fun he => hfresh (List.mem_map.2 ⟨c, hmem, he⟩)
        rw [Memory.read_write_other m b hne] at hread
        exact ⟨List.mem_cons_of_mem _ hmem, hread⟩

/-- After the loop every byte that it went over is stored. -/
theorem saveCells_read {cells : List Host.Cell} {c : Host.Cell} :
    ∀ {m : Memory}, (cells.map Prod.fst).Nodup → (∀ x ∈ cells, x.1 < 6) → Memory.wf m = true →
      c ∈ cells → Memory.read (saveCells cells m).1 c.1 = c.2 := by
  induction cells with
  | nil => exact fun _ _ _ hc => nomatch hc
  | cons x rest ih =>
    intro m hnd hlt hm hc
    obtain ⟨a, b⟩ := x
    obtain ⟨hfresh, hnd⟩ := List.nodup_cons.1 hnd
    obtain ⟨ha, hlt⟩ := List.forall_mem_cons.1 hlt
    have hkeep : ∀ {m' : Memory}, Memory.read (saveCells rest m').1 a = Memory.read m' a :=
      saveCells_read_other fun y hy he => hfresh (List.mem_map.2 ⟨y, hy, he⟩)
    by_cases hb : Memory.read m a = b
    · rw [saveCells_cons_stored hb]
      rcases List.mem_cons.1 hc with rfl | hc
      · exact hkeep.trans hb
      · exact ih hnd hlt hm hc
    · rw [saveCells_cons_changed hb]
      rcases List.mem_cons.1 hc with rfl | hc
      · exact hkeep.trans (Memory.read_write_same hm a b)
      · exact ih hnd hlt (Memory.write_wf b ha hm) hc

/-- The loop over bytes that are all stored writes none. -/
theorem saveCells_of_stored {cells : List Host.Cell} {m : Memory}
    (h : ∀ c ∈ cells, Memory.read m c.1 = c.2) : saveCells cells m = (m, []) := by
  induction cells with
  | nil => rfl
  | cons x rest ih =>
    obtain ⟨hx, hrest⟩ := List.forall_mem_cons.1 h
    exact (saveCells_cons_stored hx).trans (ih hrest)

/-- Settles O51: the record's six offsets differ, so the loop finds each byte as stored before, leaves
it as computed, and finds nothing to write the second time. -/
theorem saveWritesChangedBytesOnly : Obligations.SaveWritesChangedBytesOnly := by
  intro w m hm
  have hread : ∀ c ∈ recordCells w, Memory.read (saveCells (recordCells w) m).1 c.1 = c.2 :=
    fun _ hc => saveCells_read (recordCells_nodup w) (fun _ => recordCells_offset) hm hc
  exact ⟨fun _ => saveCells_writes_changed (recordCells_nodup w), hread,
    congrArg Prod.snd (saveCells_of_stored hread)⟩

end Sys2Proof.Machine

/-! Proofs of the statements of 30_encoding.md: the decoder and the encoder agree (R71, R73, R74,
R79), the events of one clock (R72), the snapshot's layout (R87), and the characters of replies and
messages (R77, R81 to R83). -/

namespace Sys2Proof.Machine

/-! ### The decoder and the encoder (R71, R73, R74, R79) -/

/-- The codes that no named row has are those from 0x11 on (R78). -/
theorem opOf_eq_unrecognized_iff (op : Byte) : opOf op = .unrecognized ↔ 0x11#8 ≤ op := by
  revert op
  decide

/-- The command read from a word, when its operation code is an `UNRECOGNIZED` one (R78). -/
theorem decodeCommand_unrecognized {op : Byte} (h : 0x11#8 ≤ op) (d : Word) :
    decodeCommand (commandWord op d) = .unrecognized op d := by
  unfold decodeCommand
  rw [opField_commandWord, dataField_commandWord, (opOf_eq_unrecognized_iff op).2 h]

/-- A well-formed command is what the decoder reads from its word (R73, R74). -/
theorem decodeCommand_of_encode {i : Instr} {w : BitVec 24} (hwf : i.wf = true)
    (hc : encode i = .cmd w) : decodeCommand w = i := by
  cases i with
  | unrecognized op d =>
    cases hc
    exact decodeCommand_unrecognized (of_decide_eq_true hwf) d
  | tick | cmd _ | persistTake | forceDisable | reset _ => cases hc
  | msenc1 | msenc2 | msenc4 | msenc8 | msenc16 | msenc32 => cases hc
  | _ =>
    cases hc
    unfold decodeCommand
    rw [opField_commandWord, dataField_commandWord]
    rfl

theorem decode_of_encode_cmd {i : Instr} {w : BitVec 24} (hwf : i.wf = true)
    (hc : encode i = .cmd w) : decode (encode i) = .ok i := by
  rw [hc]
  exact congrArg Except.ok (decodeCommand_of_encode hwf hc)

/-- A clock with one strobe is that strobe's event, with every value of the port it samples
(R71). -/
theorem decode_of_encode_evt {i : Instr} {c : Clock} (hc : encode i = .evt c) :
    decode (encode i) = .ok i := by
  cases i with
  | tick | persistTake | forceDisable => rfl
  | cmd w => simp [encode, decode, decodeClock]
  | reset init => simp [encode, decode, decodeClock]
  | _ => cases hc

/-- Settles O1: a command by its two fields, an event by its one strobe, an encoder evaluation by
its pattern. -/
theorem decodeOfEncode : Obligations.DecodeOfEncode := by
  intro i hwf
  cases i with
  | tick | cmd _ | persistTake | forceDisable | reset _ => exact decode_of_encode_evt rfl
  | msenc1 | msenc2 | msenc4 | msenc8 | msenc16 | msenc32 => rfl
  | _ => exact decode_of_encode_cmd hwf rfl

theorem decodeCommand_wf (w : BitVec 24) : (decodeCommand w).wf = true := by
  unfold decodeCommand
  cases hop : opOf (opField w) with
  | unrecognized => exact decide_eq_true ((opOf_eq_unrecognized_iff _).1 hop)
  | _ => rfl

/-- Settles O2: the decoder keeps both fields of the word, and reads `UNRECOGNIZED` from the codes
of no named row alone. -/
theorem encodeOfDecodeCommand : Obligations.EncodeOfDecodeCommand := fun w =>
  ⟨decodeCommand_wf w, encode_decodeCommand w⟩

/-! ### The command table (R74) -/

/-- The mnemonics of the command rows that fit a word of the table's numbering. -/
def fittingMnemonics (w : Nat) : List String :=
  ((commandRows ++ unrecognizedRows).filter fun r => decide (w &&& r.mask = r.bits)).map
    fun r => r.mnemonic

/-- Every row of the command table masks the operation code alone. -/
theorem commandRows_mask : ∀ r ∈ commandRows ++ unrecognizedRows,
    r.mask = (BitVec.ofNat 8 (r.mask >>> 16)).toNat <<< 16 := by decide

/-- Which rows fit a command word does not depend on its `data`. -/
theorem fittingMnemonics_data (op : Byte) (d : Word) :
    fittingMnemonics (commandWord op d).toNat = fittingMnemonics (commandWord op 0).toNat := by
  unfold fittingMnemonics
  refine congrArg _ (List.filter_congr fun r hr => ?_)
  rw [commandRows_mask r hr, commandWord_and_mask, commandWord_and_mask]

theorem mnemonic_decodeCommand_data (op : Byte) (d : Word) :
    (decodeCommand (commandWord op d)).mnemonic = (decodeCommand (commandWord op 0)).mnemonic := by
  unfold decodeCommand
  rw [opField_commandWord, opField_commandWord]
  cases opOf op <;> rfl

/-- One row for each of the 256 operation codes (R74). -/
theorem fittingMnemonics_op : ∀ op : Byte,
    fittingMnemonics (commandWord op 0).toNat = [(decodeCommand (commandWord op 0)).mnemonic] := by
  decide

/-- Settles O3: rows and decoder both look at the operation code alone, and of each of its 256
values the table has one row. -/
theorem commandRowsPartitionCommandWords : Obligations.CommandRowsPartitionCommandWords := by
  intro w
  change fittingMnemonics w.toNat = _
  rw [← commandWord_fields w, fittingMnemonics_data, mnemonic_decodeCommand_data]
  exact fittingMnemonics_op _

/-! ### The selector patterns (R79, R80, R105) -/

theorem msenc_not_reserved (l : Level) : msenc l ≠ 0b101 ∧ msenc l ≠ 0b110 := by
  cases l <;> decide

/-- A number that names a level is that level's multiplier (R80). -/
theorem eq_multiplier_of_levelOfMultiplier {n : Nat} {l : Level}
    (h : levelOfMultiplier n = some l) : n = multiplier l := by
  unfold levelOfMultiplier at h
  split at h <;> cases h <;> rfl

theorem levelOfMultiplier_multiplier (l : Level) : levelOfMultiplier (multiplier l) = some l := by
  cases l <;> rfl

theorem levelOfMultiplier_isSome_iff (n : Nat) :
    (∃ l, levelOfMultiplier n = some l) ↔ n ∈ [1, 2, 4, 8, 16, 32] := by
  constructor
  · rintro ⟨l, hl⟩
    rw [eq_multiplier_of_levelOfMultiplier hl]
    exact multiplier_mem l
  · intro hn
    exact Option.isSome_iff_exists.1 ((by decide : ∀ k ∈ [1, 2, 4, 8, 16, 32],
      (levelOfMultiplier k).isSome = true) n hn)

/-- Below 32 a pattern is the level's base-2 logarithm (R80). -/
theorem two_pow_msenc {l : Level} (h : l ≠ .x32) : 2 ^ (msenc l).toNat = multiplier l := by
  cases l with
  | x32 => exact absurd rfl h
  | _ => rfl

theorem levelOfPattern_msenc (l : Level) : levelOfPattern (msenc l) = some l := by
  cases l <;> rfl

/-- Settles O5: each clause is a fact about the six levels. -/
theorem selectorPatterns : Obligations.SelectorPatterns :=
  ⟨fun s => msenc_not_reserved (levelOf s.fine), levelOfMultiplier_isSome_iff,
    levelOfMultiplier_multiplier, fun _ => two_pow_msenc, rfl, levelOfPattern_msenc⟩

/-- Settles O4: the words are encodings, so the decoder gives back what they encode; the two
clocks and the pattern that encode nothing are told apart by name. -/
theorem writtenWordsDecode : Obligations.WrittenWordsDecode := by
  have hcmd : ∀ i : Instr, i.wf = true → ∀ w, encode i = .cmd w → decodeCommand w = i :=
    fun _ hwf _ => decodeCommand_of_encode hwf
  exact ⟨hcmd (.setTarget 0x4000) rfl _ rfl, hcmd (.go 0) rfl _ rfl,
    hcmd (.getPosition 0xBEEF) rfl _ rfl, hcmd (.setSdiv 0xAB08) rfl _ rfl,
    hcmd (.holdOff 0) rfl _ rfl, hcmd (.unrecognized 0xFF 0x1234) rfl _ rfl,
    decodeOfEncode .tick rfl, decodeOfEncode (.cmd 0x021234) rfl, decodeOfEncode .persistTake rfl,
    decodeOfEncode .forceDisable rfl, decodeOfEncode (.reset 0x0020010) rfl, rfl, rfl,
    decodeOfEncode .msenc8 rfl, decodeOfEncode .msenc32 rfl, rfl⟩

/-- Settles O37: the six evaluations show the pattern of their level. -/
theorem encoderEvaluations : Obligations.EncoderEvaluations := fun s =>
  ⟨exec_msencInstr .x1 s, exec_msencInstr .x2 s, exec_msencInstr .x4 s, exec_msencInstr .x8 s,
    exec_msencInstr .x16 s, exec_msencInstr .x32 s⟩

/-! ### The events of one clock (R72) -/

/-- Settles O7: `CMD` is the command of its word, and every instruction has a next state. -/
theorem cmdEventExecutesDecodedCommand : Obligations.CmdEventExecutesDecodedCommand := by
  intro w s
  obtain ⟨t, ht⟩ := exec_total (.cmd w) s
  exact ⟨t, ht, (exec_cmd w s).symm.trans ht⟩

/-- An event starts from idle output ports, whatever the last one put there (R13, R76). -/
theorem exec_begin (i : Instr) (s : State) : exec i s.begin = exec i s := by
  cases i <;> rfl

theorem runEvents_begin (is : List Instr) (s : State) : runEvents is s.begin = runEvents is s := by
  cases is with
  | nil => rfl
  | cons i rest =>
    unfold runEvents
    rw [exec_begin]

/-- A clock that delivers one event is that event (R71). -/
theorem runEvents_singleton (i : Instr) (s : State) : runEvents [i] s = exec i s := by
  obtain ⟨t, ht⟩ := exec_total i s
  rw [runEvents_cons_next ht (runEvents_nil t), ht, State.begin_out, Output.merge_idle]
  rfl

/-- What one strobe of a clock does: its event when it is present, nothing when it is absent
(R72). -/
def execStrobe (present : Bool) (i : Instr) (s : State) : Host.Outcome State Fault Refusal :=
  if present then exec i s else .next s.begin

theorem execStrobe_total (present : Bool) (i : Instr) (s : State) :
    ∃ t, execStrobe present i s = .next t := by
  cases present with
  | true => exact exec_total i s
  | false => exact ⟨_, rfl⟩

/-- What holds of idle output ports and of the event's holds after a strobe. -/
theorem execStrobe_out {P : Output → Prop} {present : Bool} {i : Instr} {s t : State}
    (h : execStrobe present i s = .next t) (hidle : P Output.idle)
    (hexec : ∀ {u}, exec i s = .next u → P u.out) : P t.out := by
  cases present with
  | true => exact hexec h
  | false =>
    cases h
    exact hidle

/-- One more strobe of a clock: it is performed first, and its outputs come first (R72). -/
theorem runEvents_strobe {present : Bool} {i : Instr} {rest : List Instr} {s t u : State}
    (h : execStrobe present i s = .next t) (hr : runEvents rest t = .next u) :
    runEvents ((if present then [i] else []) ++ rest) s =
      .next { u with out := t.out.merge u.out } := by
  cases present with
  | true => exact runEvents_cons_next h hr
  | false =>
    cases h
    rw [runEvents_begin] at hr
    rw [State.begin_out, Output.idle_merge]
    exact hr

theorem decodeClock_reset {c : Clock} (h : c.ev.getLsbD 4 = true) :
    decodeClock c = [.reset c.init] := by
  simp [decodeClock, h]

theorem decodeClock_strobes {c : Clock} (h : c.ev.getLsbD 4 = false) :
    decodeClock c =
      (if c.ev.getLsbD 2 then [.persistTake] else []) ++
        ((if c.ev.getLsbD 0 then [.tick] else []) ++
          ((if c.ev.getLsbD 1 then [.cmd c.cmdWord] else []) ++
            ((if c.ev.getLsbD 3 then [.forceDisable] else []) ++ []))) := by
  unfold decodeClock
  rw [h, List.append_nil, List.append_assoc, List.append_assoc]
  rfl

theorem takeStrobe_out {present : Bool} {s t : State}
    (h : execStrobe present .persistTake s = .next t) :
    t.out = { Output.idle with snap := t.out.snap } := by
  refine execStrobe_out (P := fun o => o = { Output.idle with snap := o.snap }) h rfl fun hu => ?_
  cases hu
  rfl

theorem tickStrobe_out {present : Bool} {s t : State} (h : execStrobe present .tick s = .next t) :
    t.out = { Output.idle with steps := t.out.steps } := by
  refine execStrobe_out (P := fun o => o = { Output.idle with steps := o.steps }) h rfl fun hu => ?_
  obtain ⟨ds, _, ho⟩ := exec_tick_out hu
  rw [ho]

theorem cmdStrobe_out {present : Bool} {w : BitVec 24} {s t : State}
    (h : execStrobe present (.cmd w) s = .next t) :
    t.out = { Output.idle with reply := t.out.reply } := by
  refine execStrobe_out (P := fun o => o = { Output.idle with reply := o.reply }) h rfl fun hu => ?_
  rw [exec_cmd] at hu
  obtain ⟨r, ho⟩ := exec_command_out (encode_decodeCommand w) hu
  rw [ho]

theorem forceDisableStrobe_out {present : Bool} {s t : State}
    (h : execStrobe present .forceDisable s = .next t) : t.out = Output.idle := by
  refine execStrobe_out (P := fun o => o = Output.idle) h rfl fun hu => ?_
  cases hu
  rfl

/-- The four strobes of a clock drive different ports, so together they show each one's own (R13,
R76). -/
theorem merge_strobes {o1 o2 o3 o4 : Output} (h1 : o1 = { Output.idle with snap := o1.snap })
    (h2 : o2 = { Output.idle with steps := o2.steps })
    (h3 : o3 = { Output.idle with reply := o3.reply }) (h4 : o4 = Output.idle) :
    o1.merge (o2.merge (o3.merge (o4.merge Output.idle))) =
      { Output.idle with steps := o2.steps, reply := o3.reply, snap := o1.snap } := by
  rw [h1, h2, h3, h4]
  simp [Output.merge, Output.idle]

/-- Settles O8: the events of a clock are its four strobes in order, each from the state the one
before it left, and each drives a port of its own. -/
theorem coincidentStrobesInOrder : Obligations.CoincidentStrobesInOrder := by
  intro s c rest hin
  have hstep : step s = runEvents (decodeClock c) { s with inputs := rest } := step_of_input hin
  refine ⟨fun hr => ?_, fun hr => ?_⟩
  · rw [hstep, decodeClock_reset hr, runEvents_singleton]
  · obtain ⟨t1, h1⟩ := execStrobe_total (c.ev.getLsbD 2) .persistTake { s with inputs := rest }
    obtain ⟨t2, h2⟩ := execStrobe_total (c.ev.getLsbD 0) .tick t1
    obtain ⟨t3, h3⟩ := execStrobe_total (c.ev.getLsbD 1) (.cmd c.cmdWord) t2
    obtain ⟨t4, h4⟩ := execStrobe_total (c.ev.getLsbD 3) .forceDisable t3
    refine ⟨t1, t2, t3, t4, h1, h2, h3, h4, ?_⟩
    rw [hstep, decodeClock_strobes hr,
      runEvents_strobe h1 (runEvents_strobe h2 (runEvents_strobe h3 (runEvents_strobe h4
        (runEvents_nil t4)))),
      ← merge_strobes (takeStrobe_out h1) (tickStrobe_out h2) (cmdStrobe_out h3)
        (forceDisableStrobe_out h4)]
    rfl

/-! ### Steps (R71, R73, R206) -/

/-- A clock that decodes to an instruction delivers it and nothing else. -/
theorem decodeClock_of_decode {c : Clock} {i : Instr} (h : decode (.evt c) = .ok i) :
    decodeClock c = [i] := by
  rcases hd : decodeClock c with _ | ⟨j, _ | ⟨k, rest⟩⟩
  · simp [decode, hd] at h
  · simpa [decode, hd] using h
  · simp [decode, hd] at h

theorem decodeClock_cmd (w : BitVec 24) : decodeClock ⟨0b00010, w, 0⟩ = [.cmd w] :=
  decodeClock_of_decode (decodeOfEncode (.cmd w) rfl)

theorem decodeClock_no_strobe (w : BitVec 24) (init : BitVec 26) :
    decodeClock ⟨0, w, init⟩ = [] := by
  simp [decodeClock]

/-- The input that brings a port word to the block performs the instruction that the word decodes
to. -/
theorem perform_inputOf {p : PortWord} {x : Input} {i : Instr} (hx : inputOf p = some x)
    (hi : decode p = .ok i) (s : State) : perform x s = exec i s := by
  cases p with
  | cmd w =>
    cases hx
    cases hi
    change runEvents (decodeClock ⟨0b00010, w, 0⟩) s = _
    rw [decodeClock_cmd, runEvents_singleton, exec_cmd]
  | evt c =>
    cases hx
    change runEvents (decodeClock c) s = _
    rw [decodeClock_of_decode hi, runEvents_singleton]
  | msel q =>
    obtain ⟨l, hl, rfl⟩ := Option.map_eq_some_iff.1 hx
    simp only [decode, hl] at hi
    cases hi
    rfl

/-- Settles O6: the step performs the input, and the input is the port word's instruction. -/
theorem stepRunsDecodedInstruction : Obligations.StepRunsDecodedInstruction :=
  fun _ _ _ _ _ hx hin hi => (step_of_input hin).trans (perform_inputOf hx hi _)

/-- Settles O9: no strobe decodes to no event, and a step with no event or no input only clears the
output ports. -/
theorem noEventChangesNothing : Obligations.NoEventChangesNothing := by
  intro s w init rest
  refine ⟨fun hin => ?_, step_of_no_input⟩
  rw [step_of_input hin]
  change runEvents (decodeClock ⟨0, w, init⟩) _ = _
  rw [decodeClock_no_strobe]
  rfl

/-- Settles O38: the snapshot packs the four registers, and `RESET` unpacks its word. -/
theorem snapshotRestoresPersistedSubset : Obligations.SnapshotRestoresPersistedSubset := by
  intro s t u w ht hw
  cases ht
  obtain rfl : snapshot s = w := Option.some.inj hw
  have hpos : persistedPos (snapshot s) = s.pos := persistedPos_pack ..
  have hsdiv : persistedSdiv (snapshot s) = s.sdiv := persistedSdiv_pack ..
  have hfine : persistedFine (snapshot s) = s.fine := persistedFine_pack ..
  have hhold : persistedHold (snapshot s) = s.hold := persistedHold_pack ..
  exact ⟨hpos, hsdiv, hfine, hhold, _, rfl, hpos, hfine, hsdiv, hhold⟩

/-! ### Hexadecimal characters (R77, R83) -/

theorem hexValue_hexChar (d : BitVec 4) : hexValue (hexChar d) = some d := by
  revert d
  decide

theorem hexChar_isDigit (d : BitVec 4) :
    0x30#8 ≤ hexChar d ∧ hexChar d ≤ 0x39#8 ∨ 0x41#8 ≤ hexChar d ∧ hexChar d ≤ 0x46#8 := by
  revert d
  decide

theorem hexByte_hexChar (d1 d0 : BitVec 4) :
    hexByte (hexChar d1) (hexChar d0) = some (d1 ++ d0) := by
  simp [hexByte, hexValue_hexChar]

/-- Adjacent digits of a value side by side are its byte at the lower one. -/
theorem digits_append (v : Word) (k : Nat) :
    v.extractLsb' (k + 4) 4 ++ v.extractLsb' k 4 = v.extractLsb' k 8 :=
  BitVec.extractLsb'_append_extractLsb'_eq_extractLsb' rfl

/-- The two characters of a byte of a value read back as that byte. -/
theorem hexByte_extract (v : Word) (k : Nat) :
    hexByte (hexChar (v.extractLsb' (k + 4) 4)) (hexChar (v.extractLsb' k 4)) =
      some (v.extractLsb' k 8) := by
  rw [hexByte_hexChar, digits_append]

/-- The characters of a four-digit reply, read back as a payload, give its value (R77, R83). -/
theorem payloadData_four {v : Word} {c3 c2 c1 c0 : Byte}
    (h : renderReply ⟨.four, v⟩ = [c3, c2, c1, c0, endByte]) :
    payloadData 4 [c3, c2, c1, c0] = some v := by
  cases h
  have hv : v.extractLsb' 8 8 ++ v.extractLsb' 0 8 = v := by
    rw [BitVec.extractLsb'_append_extractLsb'_eq_extractLsb' (by rfl)]
    simp
  simp only [payloadData, hexByte_extract v 8, hexByte_extract v 0, hv]

/-- The characters of a two-digit reply, read back as a payload, give its value's low byte. -/
theorem payloadData_two {v : Word} {c1 c0 : Byte}
    (h : renderReply ⟨.two, v⟩ = [c1, c0, endByte]) :
    payloadData 2 [c1, c0] = some ((v.extractLsb' 0 8).setWidth 16) := by
  cases h
  simp only [payloadData, hexByte_extract v 0, Option.map_some]

/-- Settles O53: each digit is read back from its character, and the digits side by side are the
value. -/
theorem hexadecimalRoundTrip : Obligations.HexadecimalRoundTrip := fun _ =>
  ⟨⟨_, _, _, _, rfl, payloadData_four rfl⟩, ⟨_, _, rfl, payloadData_two rfl⟩, fun d =>
    ⟨hexValue_hexChar d, hexChar_isDigit d⟩⟩

/-! ### Messages (R81, R82, R203, R204) -/

/-- A message with a code and the payload its operation expects delivers that operation's command
word (R204). -/
theorem dispatchMessage_of_payload {n : Nat} {c1 c2 : Byte} {payload : List Byte} {op : Op}
    {d : Word}
    (hcode : lookupCode c1 c2 = some op) (hd : payloadData (payloadDigits op) payload = some d) :
    dispatchMessage n (c1 :: c2 :: payload) = some (op, commandWord (opCode op) d) := by
  simp [dispatchMessage, hcode, hd]

theorem dispatchMessage_without_payload {n : Nat} {c1 c2 : Byte} (op : Op)
    (hcode : lookupCode c1 c2 = some op) (hnone : payloadDigits op = 0) :
    dispatchMessage n [c1, c2] = some (op, commandWord (opCode op) 0) :=
  dispatchMessage_of_payload hcode (by rw [hnone]; rfl)

/-- Settles O55: each of the seven codes is in the table, with the payload that its operation
expects. -/
theorem knownSerialCommands : Obligations.KnownSerialCommands := by
  intro n v h3 h2 h1 h0 h
  have hv := payloadData_four h
  exact ⟨dispatchMessage_of_payload (op := .setTarget) rfl hv,
    dispatchMessage_of_payload (op := .setPosition) rfl hv,
    dispatchMessage_without_payload .go rfl rfl,
    dispatchMessage_without_payload .getPosition rfl rfl,
    dispatchMessage_without_payload .getVersion rfl rfl,
    dispatchMessage_without_payload .getTemp rfl rfl,
    dispatchMessage_without_payload .stop rfl rfl⟩

/-- A byte that neither completes a message nor overflows the buffer changes the receiver alone
(R203). -/
theorem perform_serialByte_receiving {b : Byte} {s : State} {r : Rx}
    (hb : rxByte s.draws s.rx b = (r, none)) (ho : overflows s.rx b = false) :
    perform (.serialByte b) s = .next { s.begin with rx := r, draws := s.draws + 1 } := by
  simp [perform, envSerialByte, hb, ho, noteCommand]

theorem perform_serialByte_completing {b : Byte} {s : State} {r : Rx} {content : List Byte}
    (hb : rxByte s.draws s.rx b = (r, some content)) :
    perform (.serialByte b) s = envDispatch content { s with rx := r, draws := s.draws + 1 } := by
  simp [perform, envSerialByte, hb]

theorem rxByte_endByte (n : Nat) (content : List Byte) :
    rxByte n (.collecting content) endByte = (.idle, some content) := by
  simp [rxByte]

theorem rxByte_content {n : Nat} {content : List Byte} {b : Byte}
    (hb : b ≠ startByte ∧ b ≠ endByte) (hlen : content.length < bufferCapacity) :
    rxByte n (.collecting content) b = (.collecting (content ++ [b]), none) := by
  simp [rxByte, hb, hlen]

theorem overflows_content {content : List Byte} {b : Byte}
    (hlen : content.length < bufferCapacity) : overflows (.collecting content) b = false := by
  simp [overflows, hlen]

theorem performAll_cons {x : Input} {xs : List Input} {s t : State} (h : perform x s = .next t) :
    performAll (x :: xs) s = performAll xs t := by
  simp [performAll, h]

theorem performAll_singleton (x : Input) (s : State) : performAll [x] s = perform x s := by
  obtain ⟨t, ht⟩ := perform_total x s
  rw [performAll_cons ht, ht]
  rfl

/-- Inside a frame: the rest of the content and the terminator, in a buffer that has room for them,
dispatch the whole content (R203). -/
theorem performAll_rest_of_frame (s : State) (rest : List Byte) :
    ∀ (got : List Byte) (n : Nat), got.length + rest.length ≤ bufferCapacity →
      (∀ b ∈ rest, b ≠ startByte ∧ b ≠ endByte) →
      performAll ((rest ++ [endByte]).map Input.serialByte)
          { s with rx := .collecting got, draws := n, out := Output.idle } =
        envDispatch (got ++ rest)
          { s with rx := .idle, draws := n + rest.length + 1, out := Output.idle } := by
  induction rest with
  | nil =>
    intro got n _ _
    rw [List.append_nil]
    exact (performAll_singleton _ _).trans (perform_serialByte_completing (rxByte_endByte n got))
  | cons b rest ih =>
    intro got n hlen hb
    obtain ⟨hb, hrest⟩ := List.forall_mem_cons.1 hb
    rw [List.length_cons] at hlen
    have hroom : got.length < bufferCapacity := by omega
    have hbyte := perform_serialByte_receiving
      (s := { s with rx := .collecting got, draws := n, out := Output.idle })
      (rxByte_content hb hroom) (overflows_content hroom)
    have hcat : got ++ b :: rest = (got ++ [b]) ++ rest := by simp
    have hdraws : n + (b :: rest).length + 1 = (n + 1) + rest.length + 1 := by
      rw [List.length_cons]
      omega
    rw [hcat, hdraws]
    refine (performAll_cons hbyte).trans (ih (got ++ [b]) (n + 1) ?_ hrest)
    rw [List.length_append, List.length_singleton]
    omega

/-- Settles O54: the start byte opens an empty frame, the content fills it, and the terminator
dispatches it. -/
theorem framedMessageIsDispatched : Obligations.FramedMessageIsDispatched := by
  intro content s hrx hlen hb
  have hstart : perform (.serialByte startByte) s =
      .next { s.begin with rx := .collecting [], draws := s.draws + 1 } :=
    perform_serialByte_receiving (by rw [hrx]; rfl) (by rw [hrx]; rfl)
  have hdraws : s.draws + content.length + 2 = (s.draws + 1) + content.length + 1 := by omega
  rw [hdraws]
  exact (performAll_cons hstart).trans
    (performAll_rest_of_frame s content [] (s.draws + 1) (by simpa using hlen) hb)

end Sys2Proof.Machine

/-! Proof of the statement of 40_driver_adapter.md: the driver is enabled at every step (R109). -/

namespace Sys2Proof.Machine

/-- The one outcome of a tick with a step is step 5's, after the enable of step 4 (R125, R126). -/
theorem exec_tick_step {s t : State} {d : Dir} (h : exec .tick s = .next t)
    (hd : d ∈ t.out.steps) : t.drven = true ∧ t.dir = d ∧ s.moving = true := by
  rcases exec_tick_cases h with ⟨_, rfl⟩ | ⟨_, _, rfl⟩ | ⟨_, _, _, rfl⟩ | ⟨hm, _, d', _, _, rfl⟩
  · simp [tickCountdown_out] at hd
  · simp at hd
  · simp at hd
  · have hdir : d = d' := by simpa using hd
    exact ⟨rfl, hdir.symm, hm⟩

/-- Settles O42: only a tick steps, and a tick that steps is moving and has enabled the driver. -/
theorem stepsOnlyWhileEnabled : Obligations.StepsOnlyWhileEnabled := by
  intro i s t d h hd
  obtain ⟨_, htick, _⟩ := outputsBelongToTheirEvents i s t h
  obtain rfl : i = .tick := htick (List.ne_nil_of_mem hd)
  exact exec_tick_step h hd

end Sys2Proof.Machine

/-! Proofs of the statements of 41_tick.md: the next state of a tick (R120 to R127), ticks in `Idle`
(R121, R124), the decimator (R123, R134), and the timing of a whole move (R131). -/

namespace Sys2Proof.Machine

/-! ### One tick (R120 to R127) -/

/-- Settles O14: step 1 decrements and tests, steps 2 and 3 are the decimator alone. -/
theorem idleTickCountsDown : Obligations.IdleTickCountsDown := by
  intro s hm hreq hcnt
  rw [exec_tick_idle hm]
  have hc : countingDown s.begin = true := by simp [countingDown, hm, hreq]
  rcases tickCountdown_cases s.begin with ⟨hn, _⟩ | ⟨_, hle, he⟩ | ⟨_, hge, he⟩
  · exact absurd (hc.symm.trans hn) (by decide)
  · have h1 : s.discnt = 1 := Nat.le_antisymm hle hcnt
    rw [he]
    cases hh : s.hold <;> simp [h1, hh, State.begin]
  · have h1 : s.discnt ≠ 1 := by
      rw [State.begin_discnt] at hge
      omega
    rw [he]
    simp [h1, hreq, State.begin]

/-- Settles O15: with no countdown pending a tick in `Idle` is the decimator alone. -/
theorem quiescentTickChangesOnlyDivcnt : Obligations.QuiescentTickChangesOnlyDivcnt := by
  intro s hq
  obtain ⟨hm, hreq⟩ : s.moving = false ∧ s.disreq = false := by simpa [quiescent] using hq
  rw [exec_tick_idle hm, tickCountdown_of_not (by simp [countingDown, hreq])]
  rfl

/-- Settles O16: the countdown is frozen and the decimator returns. -/
theorem nonActingTickWhileMoving : Obligations.NonActingTickWhileMoving :=
  fun _ hm ha => exec_tick_waiting hm ha

/-- Settles O17: the countdown is frozen and the decimator cleared, then steps 4 to 6 away from the
target or at it. -/
theorem actingTickWhileMoving : Obligations.ActingTickWhileMoving := by
  intro s hm ha
  rw [exec_tick_acting hm ha]
  constructor
  · intro hne
    rw [tickAct_away (s := { s.begin with divcnt := 0#8 }) hm hne]
    rfl
  · intro he
    rw [tickAct_atTarget (s := { s.begin with divcnt := 0#8 }) hm he]
    rfl

/-! ### Runs of ticks -/

/-- A tick always has its next state (R16). -/
theorem exec_tick_eq_afterTick (s : State) : exec .tick s = .next (afterTick s) := rfl

@[simp] theorem afterTicks_zero (s : State) : afterTicks 0 s = s := rfl

theorem afterTicks_succ (n : Nat) (s : State) :
    afterTicks (n + 1) s = afterTicks n (afterTick s) := rfl

theorem afterTicks_add (n k : Nat) (s : State) :
    afterTicks (n + k) s = afterTicks k (afterTicks n s) := by
  induction n generalizing s with
  | zero => rw [Nat.zero_add, afterTicks_zero]
  | succ n ih =>
    rw [Nat.add_right_comm]
    exact ih (afterTick s)

/-- The last of `n + 1` ticks comes on what the first `n` leave. -/
theorem exec_tick_afterTicks (n : Nat) (s : State) :
    exec .tick (afterTicks n s) = .next (afterTicks (n + 1) s) := by
  induction n generalizing s with
  | zero => rfl
  | succ n ih => exact ih (afterTick s)

/-- What every tick keeps holds after any number of them. -/
theorem afterTicks_keeps {P : State → Prop} (hP : ∀ s t, exec .tick s = .next t → P s → P t)
    {s : State} (hs : P s) (n : Nat) : P (afterTicks n s) := by
  induction n with
  | zero => exact hs
  | succ n ih => exact hP _ _ (exec_tick_afterTicks n s) ih

theorem afterTicks_settings (n : Nat) (s : State) :
    (afterTicks n s).tgt = s.tgt ∧ (afterTicks n s).sdiv = s.sdiv ∧
      (afterTicks n s).hold = s.hold := by
  refine afterTicks_keeps (P := fun t => t.tgt = s.tgt ∧ t.sdiv = s.sdiv ∧ t.hold = s.hold)
    (fun t u h ht => ?_) ⟨rfl, rfl, rfl⟩ n
  obtain ⟨htgt, _, hsdiv, hhold⟩ := exec_tick_settings h
  rwa [htgt, hsdiv, hhold]

/-! ### Ticks in `Idle` (R124) -/

/-- `t` is `s` as far as R124 says that a tick in `Idle` does nothing: the driver may only have gone
off. -/
structure IdleSince (s t : State) : Prop where
  moving : t.moving = false
  pos : t.pos = s.pos
  tgt : t.tgt = s.tgt
  preq : t.preq = s.preq
  dir : t.dir = s.dir
  drven : t.drven = true → s.drven = true

theorem tickCountdown_idleSince {s : State} (hm : s.moving = false) :
    IdleSince s (tickCountdown s) := by
  rcases tickCountdown_cases s with ⟨_, h⟩ | ⟨_, _, h⟩ | ⟨_, _, h⟩ <;> rw [h]
  · exact ⟨hm, rfl, rfl, rfl, rfl, id⟩
  · exact ⟨hm, rfl, rfl, rfl, rfl, fun hd => (Bool.and_eq_true_iff.1 hd).1⟩
  · exact ⟨hm, rfl, rfl, rfl, rfl, id⟩

theorem exec_tick_idleSince {r s t : State} (h : exec .tick s = .next t) (hs : IdleSince r s) :
    IdleSince r t := by
  cases (exec_tick_idle hs.moving).symm.trans h
  obtain ⟨hm, hpos, htgt, hpreq, hdir, hdrven⟩ :=
    tickCountdown_idleSince (s := s.begin) hs.moving
  exact ⟨hm, hpos.trans hs.pos, htgt.trans hs.tgt, hpreq.trans hs.preq, hdir.trans hs.dir,
    fun hd => hs.drven (hdrven hd)⟩

theorem afterTicks_idleSince {s : State} (hm : s.moving = false) (n : Nat) :
    IdleSince s (afterTicks n s) :=
  afterTicks_keeps (fun _ _ => exec_tick_idleSince) ⟨hm, rfl, rfl, rfl, rfl, id⟩ n

/-- A tick in `Idle` makes no pulse (R124). -/
theorem exec_tick_idle_out {s t : State} (h : exec .tick s = .next t) (hm : s.moving = false) :
    t.out = Output.idle := by
  cases (exec_tick_idle hm).symm.trans h
  exact tickCountdown_out s.begin

/-- Settles O18, by the invariant that every tick in `Idle` keeps; the outputs are those of the last
tick. -/
theorem idleTicksNeverMove : Obligations.IdleTicksNeverMove := by
  intro s n hm
  have hn := afterTicks_idleSince hm n
  refine ⟨hn.pos, hn.tgt, hn.moving, hn.preq, hn.dir, fun h1 => ?_, hn.drven⟩
  obtain ⟨k, rfl⟩ := Nat.exists_eq_add_of_le' h1
  exact exec_tick_idle_out (exec_tick_afterTicks k s) (afterTicks_idleSince hm k).moving

/-! ### The countdown (R121) -/

/-- In `t` the countdown of `s` has `k` ticks to go, and the driver is as it was. -/
structure CountingSince (s t : State) (k : Nat) : Prop where
  moving : t.moving = false
  disreq : t.disreq = true
  discnt : t.discnt = k
  drven : t.drven = s.drven
  hold : t.hold = s.hold

/-- Before its last tick a countdown in `Idle` goes down by one a tick. -/
theorem afterTicks_counting {s : State} (hm : s.moving = false) (hreq : s.disreq = true) (n : Nat)
    (hn : n < s.discnt) : CountingSince s (afterTicks n s) (s.discnt - n) := by
  induction n with
  | zero => exact ⟨hm, hreq, rfl, rfl, rfl⟩
  | succ n ih =>
    have hu := ih (by omega)
    have hcnt := hu.discnt
    have h1 : (afterTicks n s).discnt ≠ 1 := by omega
    rw [Host.Outcome.next.inj ((exec_tick_afterTicks n s).symm.trans
      (idleTickCountsDown _ hu.moving hu.disreq (by omega)))]
    exact ⟨hu.moving, by simp [h1], by simp only; omega, by simp [h1, hu.drven], hu.hold⟩

/-- The last tick of a countdown in `Idle` (R121). -/
theorem afterTicks_discnt {s : State} (hm : s.moving = false) (hreq : s.disreq = true)
    (hcnt : 1 ≤ s.discnt) :
    (afterTicks s.discnt s).discnt = 0 ∧ (afterTicks s.discnt s).disreq = false ∧
      (afterTicks s.discnt s).drven = (s.drven && s.hold) := by
  obtain ⟨n, hn⟩ := Nat.exists_eq_add_of_le' hcnt
  have hu := afterTicks_counting hm hreq n (by omega)
  have h1 : (afterTicks n s).discnt = 1 := by
    rw [hu.discnt]
    omega
  rw [hn, Host.Outcome.next.inj ((exec_tick_afterTicks n s).symm.trans
    (idleTickCountsDown _ hu.moving hu.disreq h1.ge))]
  cases hh : s.hold <;> simp [h1, hu.drven, hu.hold, hh]

/-- While moving a tick leaves the countdown alone unless it ends the move, which arms it (R121,
R127). -/
theorem exec_tick_moving_countdown {s t : State} (h : exec .tick s = .next t)
    (hm : s.moving = true) :
    (t.moving = true → t.disreq = s.disreq ∧ t.discnt = s.discnt) ∧
      (t.moving = false → t.disreq = true ∧ t.discnt = Config.disableDelayTicks) := by
  rcases exec_tick_cases h with ⟨hidle, _⟩ | ⟨_, _, rfl⟩ | ⟨_, _, _, rfl⟩ | ⟨_, _, _, p, _, rfl⟩
  · exact absurd (hm.symm.trans hidle) (by decide)
  · simp [hm]
  · simp
  · by_cases hp : p = s.tgt <;> simp [hp]

/-- Settles O21: each tick before the `n`-th only decrements, the `n`-th ends the countdown. -/
theorem countdownEndsOnItsTick : Obligations.CountdownEndsOnItsTick := by
  refine ⟨fun s hm hreq hcnt => ⟨fun n hn => ?_, afterTicks_discnt hm hreq hcnt⟩,
    fun s t hm h => exec_tick_moving_countdown h hm⟩
  have hu := afterTicks_counting hm hreq n hn
  exact ⟨hu.discnt, hu.disreq, hu.drven⟩

/-! ### The decimator (R123, R134) -/

theorem exec_tick_divcnt {s t : State} (h : exec .tick s = .next t) :
    t.divcnt = if acts s then 0#8 else s.divcnt + 1#8 := by
  rcases exec_tick_cases h with ⟨_, rfl⟩ | ⟨_, ha, rfl⟩ | ⟨_, ha, _, rfl⟩ | ⟨_, ha, _, _, _, rfl⟩
  · rfl
  · simp [ha]
  · simp [ha]
  · simp [ha]

theorem exec_tick_decimatorOk {s t : State} (h : exec .tick s = .next t) : DecimatorOk t := by
  unfold DecimatorOk
  rw [exec_tick_divcnt h]
  exact decimated_le s

/-- R38's bound is what keeps the increment from wrapping (R130). -/
theorem DecimatorOk.toNat_succ {s : State} (hd : DecimatorOk s) :
    (s.divcnt + 1#8).toNat = s.divcnt.toNat + 1 := by
  unfold DecimatorOk at hd
  rw [BitVec.toNat_add, BitVec.toNat_ofNat]
  omega

theorem acts_iff {s : State} (hd : DecimatorOk s) :
    acts s = true ↔ s.sdiv.toNat ≤ s.divcnt.toNat + 1 := by
  rw [acts_eq_true, BitVec.lt_def, hd.toNat_succ, Nat.not_lt]

theorem one_le_period (s : State) : 1 ≤ period s := Nat.le_max_right _ _

theorem one_le_firstActing (s : State) : 1 ≤ firstActing s := Nat.le_max_left _ _

theorem acts_iff_firstActing {s : State} (hd : DecimatorOk s) :
    acts s = true ↔ firstActing s = 1 := by
  rw [acts_iff hd]
  unfold firstActing period
  omega

theorem exec_tick_period {s t : State} (h : exec .tick s = .next t) : period t = period s := by
  obtain ⟨_, _, hsdiv, _⟩ := exec_tick_settings h
  rw [period, period, hsdiv]

theorem exec_tick_firstActing_acting {s t : State} (h : exec .tick s = .next t)
    (ha : acts s = true) : firstActing t = period s := by
  have hp := one_le_period s
  simpa [firstActing, exec_tick_period h, exec_tick_divcnt h, ha] using hp

theorem exec_tick_firstActing_waiting {s t : State} (h : exec .tick s = .next t)
    (hd : DecimatorOk s) (ha : acts s = false) : firstActing t + 1 = firstActing s := by
  have hlt : ¬s.sdiv.toNat ≤ s.divcnt.toNat + 1 := fun hle =>
    Bool.noConfusion (ha.symm.trans ((acts_iff hd).2 hle))
  have hc : t.divcnt.toNat = s.divcnt.toNat + 1 := by
    rw [exec_tick_divcnt h, if_neg (by simp [ha]), hd.toNat_succ]
  have hp := exec_tick_period h
  unfold firstActing
  rw [hp, hc]
  unfold period
  omega

/-- The acting ticks are t1, t1 + m, t1 + 2m, … (R131). -/
theorem acts_afterTicks_iff (n : Nat) {s : State} (hd : DecimatorOk s) :
    acts (afterTicks n s) = true ↔ ∃ i, n + 1 = firstActing s + i * period s := by
  induction n generalizing s with
  | zero =>
    have hp := one_le_period s
    have h1 := one_le_firstActing s
    rw [afterTicks_zero, acts_iff_firstActing hd]
    constructor
    · exact fun hf => ⟨0, by omega⟩
    · rintro ⟨i, hi⟩
      omega
  | succ n ih =>
    have h := exec_tick_eq_afterTick s
    rw [afterTicks_succ, ih (exec_tick_decimatorOk h), exec_tick_period h]
    cases ha : acts s with
    | false =>
      have hf := exec_tick_firstActing_waiting h hd ha
      exact exists_congr fun i => by omega
    | true =>
      have hf := (acts_iff_firstActing hd).1 ha
      rw [exec_tick_firstActing_acting h ha, hf]
      constructor
      · rintro ⟨i, hi⟩
        exact ⟨i + 1, by rw [Nat.succ_mul]; omega⟩
      · rintro ⟨_ | i, hi⟩
        · omega
        · exact ⟨i, by rw [Nat.succ_mul] at hi; omega⟩

/-- Settles O20: the acting ticks of a run, with t1 = m = d where the counter starts at 0. -/
theorem divisorSelectsActingTicks : Obligations.DivisorSelectsActingTicks := by
  refine ⟨fun s n hd h1 => ?_, fun s n h1 hc => ?_, fun s hd hle => ?_⟩
  · obtain ⟨_, hsdiv, _⟩ := afterTicks_settings n s
    have hn := afterTicks_keeps (fun _ _ h _ => exec_tick_decimatorOk h) hd n
    rw [acts_iff hn, hsdiv]
    omega
  · have hd : DecimatorOk s := by simp [DecimatorOk, hc]
    have hp : period s = s.sdiv.toNat := max_eq_left h1
    have hf : firstActing s = s.sdiv.toNat := by simpa [firstActing, hp, hc] using h1
    rw [acts_afterTicks_iff n hd, hp, hf, ← Nat.dvd_iff_mod_eq_zero]
    constructor
    · rintro ⟨i, hi⟩
      exact ⟨i + 1, by rw [hi, Nat.mul_succ, Nat.mul_comm, Nat.add_comm]⟩
    · rintro ⟨_ | i, hi⟩
      · omega
      · exact ⟨i, by rw [hi, Nat.mul_succ, Nat.mul_comm, Nat.add_comm]⟩
  · rw [acts_iff hd]
    omega

/-! ### The steps of a move (R126) -/

/-- The direction toward the target. -/
def heading (s : State) : Dir := if s.pos < s.tgt then .fwd else .bwd

theorem StepToward.eq_heading {s : State} {d : Dir} {p : Word} (h : StepToward s d p) :
    d = heading s := by
  cases h with
  | fwd h => simp [heading, h]
  | bwd h => simp [heading, BitVec.not_lt.2 (BitVec.le_of_lt h)]

theorem StepToward.ne {s : State} {d : Dir} {p : Word} (h : StepToward s d p) :
    s.pos ≠ s.tgt := fun he => by
  have hnat := h.toNat
  rw [he] at hnat
  omega

/-- The pulse of a tick: one, toward the target, if it acts while moving and away from the target. -/
theorem exec_tick_steps {s t : State} (h : exec .tick s = .next t) :
    t.out.steps =
      if s.moving = true ∧ acts s = true ∧ s.pos ≠ s.tgt then [heading s] else [] := by
  rcases exec_tick_cases h with
    ⟨hm, rfl⟩ | ⟨_, ha, rfl⟩ | ⟨_, _, he, rfl⟩ | ⟨hm, ha, d, p, hp, rfl⟩
  · simp [hm, tickCountdown_out]
  · simp [ha]
  · simp [he]
  · simp [hm, ha, hp.ne, hp.eq_heading]

/-- A tick does not lead away from the target, nor past it. -/
theorem exec_tick_heading {s t : State} (h : exec .tick s = .next t) (hne : t.pos ≠ t.tgt) :
    s.pos ≠ s.tgt ∧ heading t = heading s := by
  obtain ⟨htgt, hpos | ⟨d, hstep⟩⟩ := exec_tick_pos h
  · exact ⟨by rwa [hpos, htgt] at hne, by rw [heading, heading, hpos, htgt]⟩
  · refine ⟨hstep.ne, ?_⟩
    have hnat := hstep.toNat
    have hne' : t.pos.toNat ≠ s.tgt.toNat := fun he => hne (htgt ▸ BitVec.eq_of_toNat_eq he)
    have hside : t.pos < s.tgt ↔ s.pos < s.tgt := by
      simp only [BitVec.lt_def]
      omega
    simp only [heading, htgt, hside]

theorem afterTicks_heading {s : State} (n : Nat)
    (hne : (afterTicks n s).pos ≠ (afterTicks n s).tgt) :
    s.pos ≠ s.tgt ∧ heading (afterTicks n s) = heading s := by
  refine afterTicks_keeps (P := fun t => t.pos ≠ t.tgt → s.pos ≠ s.tgt ∧ heading t = heading s)
    (fun t u h ht hu => ?_) (fun h => ⟨h, rfl⟩) n hne
  obtain ⟨htne, hdir⟩ := exec_tick_heading h hu
  exact ⟨(ht htne).1, hdir.trans (ht htne).2⟩

/-- A move that did not start at its target is away from it as long as it lasts (R127). -/
theorem afterTicks_away {s : State} (hne : s.pos ≠ s.tgt) (n : Nat) :
    (afterTicks n s).moving = true → (afterTicks n s).pos ≠ (afterTicks n s).tgt := by
  refine afterTicks_keeps (P := fun t => t.moving = true → t.pos ≠ t.tgt) (fun t u h ht hu => ?_)
    (fun _ => hne) n
  rcases exec_tick_cases h with ⟨hm, rfl⟩ | ⟨hm, _, rfl⟩ | ⟨_, _, _, rfl⟩ | ⟨_, _, _, _, _, rfl⟩
  · exact absurd (hu.symm.trans (tickCountdown_idleSince (s := t.begin) hm).moving) (by decide)
  · exact ht hm
  · cases hu
  · exact of_decide_eq_true hu

/-! ### The end of a move (R127, R131) -/

/-- The tick on which a move ends, counted from 1 (R131). -/
def moveEnd (s : State) : Nat := firstActing s + (max (distance s) 1 - 1) * period s

theorem distance_eq_zero_iff (s : State) : distance s = 0 ↔ s.pos = s.tgt := by
  unfold distance
  rw [← BitVec.toNat_inj]
  omega

theorem StepToward.distance {s t : State} {d : Dir} (h : StepToward s d t.pos)
    (htgt : t.tgt = s.tgt) : distance t + 1 = distance s := by
  have hnat := h.toNat
  unfold Machine.distance
  rw [htgt]
  omega

theorem moveEnd_of_distance_le {s : State} (hk : distance s ≤ 1) : moveEnd s = firstActing s := by
  rw [moveEnd, max_eq_right hk, Nat.sub_self, Nat.zero_mul, Nat.add_zero]

/-- A step that leaves some of the way puts the end of the move off by one period. -/
theorem moveEnd_of_step {s t : State} (hper : period t = period s)
    (hdist : distance t + 1 = distance s) (hpos : 1 ≤ distance t) :
    moveEnd s = firstActing s + (distance t - 1) * period t + period t := by
  obtain ⟨k, hk⟩ := Nat.exists_eq_add_of_le' hpos
  have hmax : max (distance s) 1 - 1 = k + 1 := by omega
  rw [moveEnd, hmax, hk, Nat.add_sub_cancel, Nat.succ_mul, hper, Nat.add_assoc]

/-- One tick of a move brings its end one tick nearer, or is its end. -/
theorem exec_tick_moveEnd {s t : State} (h : exec .tick s = .next t) (hd : DecimatorOk s)
    (hm : s.moving = true) : moveEnd s = if t.moving then moveEnd t + 1 else 1 := by
  have hper := exec_tick_period h
  rcases exec_tick_cases h with ⟨hidle, _⟩ | ⟨_, ha, ht⟩ | ⟨_, ha, he, ht⟩ | ⟨_, ha, d, p, hp, ht⟩
  · exact absurd (hm.symm.trans hidle) (by decide)
  · have hf := exec_tick_firstActing_waiting h hd ha
    have hdist : distance t = distance s := by rw [ht]; rfl
    have htm : t.moving = true := by rw [ht]; exact hm
    rw [if_pos htm, moveEnd, moveEnd, hdist, hper, ← hf, Nat.add_right_comm]
  · have hdist := (distance_eq_zero_iff s).2 he
    rw [moveEnd_of_distance_le (by omega), (acts_iff_firstActing hd).1 ha, ht]
    rfl
  · have hf := (acts_iff_firstActing hd).1 ha
    have hpos : t.pos = p := by rw [ht]
    have htgt : t.tgt = s.tgt := by rw [ht]; rfl
    have hdist : distance t + 1 = distance s := StepToward.distance (d := d) (hpos ▸ hp) htgt
    by_cases hpt : p = s.tgt
    · have htm : t.moving = false := by rw [ht]; simp [hpt]
      have hzero := (distance_eq_zero_iff t).2 (by rw [hpos, htgt, hpt])
      rw [moveEnd_of_distance_le (by omega), hf, htm]
      rfl
    · have htm : t.moving = true := by rw [ht]; simp [hpt]
      have hne : distance t ≠ 0 := by rwa [ne_eq, distance_eq_zero_iff, hpos, htgt]
      have h1 : 1 ≤ distance t := Nat.one_le_iff_ne_zero.2 hne
      rw [moveEnd_of_step hper hdist h1, if_pos htm, moveEnd, max_eq_left h1, hf,
        exec_tick_firstActing_acting h ha, hper]
      omega

theorem moveEnd_pos (s : State) : 0 < moveEnd s :=
  Nat.add_pos_left (one_le_firstActing s) _

theorem moving_afterTicks (n : Nat) {s : State} (hd : DecimatorOk s) (hm : s.moving = true) :
    (afterTicks n s).moving = decide (n < moveEnd s) := by
  induction n generalizing s with
  | zero => simpa [hm] using moveEnd_pos s
  | succ n ih =>
    have h := exec_tick_eq_afterTick s
    have hend := exec_tick_moveEnd h hd hm
    cases htm : (afterTick s).moving with
    | true =>
      rw [htm, if_pos rfl] at hend
      rw [afterTicks_succ, ih (exec_tick_decimatorOk h) htm, hend]
      simp
    | false =>
      rw [htm] at hend
      rw [afterTicks_succ, (afterTicks_idleSince htm n).moving, hend]
      simp

/-- What the tick that ends a move leaves (R125, R127). -/
theorem exec_tick_arrival {s t : State} (h : exec .tick s = .next t) (hm : s.moving = true)
    (htm : t.moving = false) :
    t.pos = t.tgt ∧ t.preq = true ∧ (s.pos ≠ s.tgt → t.drven = true) := by
  rcases exec_tick_cases h with ⟨hidle, _⟩ | ⟨_, _, rfl⟩ | ⟨_, _, he, rfl⟩ | ⟨_, _, d, p, _, rfl⟩
  · exact absurd (hm.symm.trans hidle) (by decide)
  · exact absurd (hm.symm.trans htm) (by decide)
  · exact ⟨he, rfl, fun hne => absurd he hne⟩
  · have hp : p = s.tgt := by simpa using htm
    simp [hp]

/-- The steps of a move are made by the ticks that act before it ends. -/
theorem steps_afterTicks_iff (n : Nat) {s : State} (hd : DecimatorOk s) (hm : s.moving = true) :
    (afterTicks (n + 1) s).out.steps ≠ [] ↔
      ∃ i < distance s, n + 1 = firstActing s + i * period s := by
  have haway : (afterTicks n s).moving = true →
      ((afterTicks n s).pos ≠ (afterTicks n s).tgt ↔ distance s ≠ 0) := fun hmn => by
    rw [ne_eq (distance s), distance_eq_zero_iff]
    exact ⟨fun h => (afterTicks_heading n h).1, fun h => afterTicks_away h n hmn⟩
  rw [exec_tick_steps (exec_tick_afterTicks n s)]
  simp only [ne_eq, ite_eq_right_iff, List.cons_ne_nil, imp_false, not_not]
  rw [and_congr_right fun hmn => and_congr_right fun _ => haway hmn, moving_afterTicks n hd hm,
    acts_afterTicks_iff n hd, decide_eq_true_eq]
  unfold moveEnd
  constructor
  · rintro ⟨hlt, ⟨i, hi⟩, hk⟩
    refine ⟨i, ?_, hi⟩
    have hle : i * period s ≤ (max (distance s) 1 - 1) * period s := by omega
    have := Nat.le_of_mul_le_mul_right hle (one_le_period s)
    omega
  · rintro ⟨i, hik, hi⟩
    have hle : i * period s ≤ (max (distance s) 1 - 1) * period s :=
      Nat.mul_le_mul_right _ (by omega)
    exact ⟨by omega, ⟨i, hi⟩, by omega⟩

/-- The j-th step of a move falls on tick t1 + (j − 1)·m (R131). -/
theorem steps_afterTicks_iff_exists (n : Nat) {s : State} (hd : DecimatorOk s)
    (hm : s.moving = true) (ho : s.out = Output.idle) :
    (afterTicks n s).out.steps ≠ [] ↔
      ∃ j, 1 ≤ j ∧ j ≤ distance s ∧ n = firstActing s + (j - 1) * period s := by
  cases n with
  | zero =>
    have h1 := one_le_firstActing s
    refine iff_of_false (by simp [ho]) ?_
    rintro ⟨j, _, _, hn⟩
    omega
  | succ n =>
    rw [steps_afterTicks_iff n hd hm]
    constructor
    · rintro ⟨i, hi, hn⟩
      exact ⟨i + 1, by omega, hi, hn⟩
    · rintro ⟨j, h1, hj, hn⟩
      exact ⟨j - 1, by omega, hn⟩

/-- Every step of a move is toward its target (R126). -/
theorem mem_steps_afterTicks {s : State} {n : Nat} {d : Dir} (ho : s.out = Output.idle)
    (h : d ∈ (afterTicks n s).out.steps) : d = heading s := by
  cases n with
  | zero => simp [ho] at h
  | succ n =>
    rw [exec_tick_steps (exec_tick_afterTicks n s)] at h
    split at h
    · rename_i hstep
      obtain ⟨_, _, hne⟩ := hstep
      exact (List.mem_singleton.1 h).trans (afterTicks_heading n hne).2
    · cases h

/-- The state in which a move ends (R125, R127). -/
structure Arrived (s t : State) : Prop where
  moving : t.moving = false
  pos : t.pos = s.tgt
  tgt : t.tgt = s.tgt
  preq : t.preq = true
  disreq : t.disreq = true
  discnt : t.discnt = Config.disableDelayTicks
  drven : 1 ≤ distance s → t.drven = true
  hold : t.hold = s.hold

theorem afterTicks_moveEnd {s : State} (hd : DecimatorOk s) (hm : s.moving = true) :
    Arrived s (afterTicks (moveEnd s) s) := by
  obtain ⟨n, hn⟩ := Nat.exists_eq_succ_of_ne_zero (moveEnd_pos s).ne'
  have h := exec_tick_afterTicks n s
  have hmn : (afterTicks n s).moving = true := by simp [moving_afterTicks n hd hm, hn]
  have hmt : (afterTicks (n + 1) s).moving = false := by simp [moving_afterTicks _ hd hm, hn]
  obtain ⟨hpos, hpreq, hdrven⟩ := exec_tick_arrival h hmn hmt
  obtain ⟨hreq, hcnt⟩ := (exec_tick_moving_countdown h hmn).2 hmt
  obtain ⟨htgt, _, hhold⟩ := afterTicks_settings (n + 1) s
  rw [hn]
  refine ⟨hmt, hpos.trans htgt, htgt, hpreq, hreq, hcnt, fun hk => ?_, hhold⟩
  have hne : s.pos ≠ s.tgt := fun he => by
    rw [(distance_eq_zero_iff s).2 he] at hk
    omega
  exact hdrven (afterTicks_away hne n hmn)

/-- After the arrival the driver stays as it is until the countdown ends (R121). -/
theorem Arrived.drven_afterTicks {s t : State} (ht : Arrived s t) {n : Nat}
    (hn : n < Config.disableDelayTicks) : (afterTicks n t).drven = t.drven :=
  (afterTicks_counting ht.moving ht.disreq n (by rwa [ht.discnt])).drven

/-- The countdown that the arrival arms turns the driver off unless `HOLD` is set (R121). -/
theorem Arrived.drven_off {s t : State} (ht : Arrived s t) (hh : s.hold = false) :
    (afterTicks Config.disableDelayTicks t).drven = false := by
  obtain ⟨_, _, hdrven⟩ :=
    afterTicks_discnt ht.moving ht.disreq (by rw [ht.discnt]; exact one_le_disableDelayTicks)
  rw [← ht.discnt, hdrven, ht.hold, hh, Bool.and_false]

/-- Settles O22: `GO` starts a move with the position, the target and the decimator of `s`; its acting
ticks, its steps and its end are those of `afterTicks`, and the countdown runs from its end. -/
theorem wholeMoveTiming : Obligations.WholeMoveTiming := by
  intro s g data hd hm hgo
  cases hgo
  have hdg : DecimatorOk { s.begin with moving := true } := hd
  have hend := afterTicks_moveEnd hdg rfl
  refine ⟨fun n => acts_afterTicks_iff n hdg,
    fun n => steps_afterTicks_iff_exists n hdg rfl rfl, fun _ _ => mem_steps_afterTicks rfl,
    fun n => moving_afterTicks n hdg rfl, hend.pos, hend.tgt, hend.preq, hend.disreq, hend.discnt,
    hend.drven, fun n hle hlt => ?_, fun hh => ?_⟩
  · obtain ⟨r, rfl⟩ := Nat.exists_eq_add_of_le hle
    rw [afterTicks_add]
    exact hend.drven_afterTicks (by omega)
  · rw [afterTicks_add]
    exact hend.drven_off hh

end Sys2Proof.Machine

/-! Proofs of the statements of 42_motion_commands.md: the rejection while moving (R140, R232) and the
four motion commands (R141 to R144). -/

namespace Sys2Proof.Machine

/-! ### The commands that the motion flag rejects (R140, R232) -/

/-- The operations with the precondition "not moving", by their codes (R74, R232). -/
theorem needsIdle_opOf_iff (op : Byte) :
    needsIdle (opOf op) = true ↔ op ∈ [0x02#8, 0x04#8, 0x07#8, 0x08#8, 0x0D#8] := by
  revert op
  decide

/-- The other commands do not test `MOVING`: run on another value of it, they leave what they leave
on this one, but for `MOVING` itself and for the reply of `GET_MOVING`. -/
theorem exec_command_setMoving {i : Instr} {w : BitVec 24} (s : State) (m : Bool)
    (hi : i = .cmd w ∨ encode i = .cmd w) (hn : needsIdle (opOf (opField w)) = false) :
    ∃ t m' o, exec i s = .next t ∧
      exec i { s with moving := m } = .next { t with moving := m', out := o } ∧
      (opField w ≠ 0x09#8 → t.out = o) := by
  obtain ⟨j, hc, he, _⟩ := exists_encoded_command hi
  rw [he]
  cases j with
  | setPosition _ | setTarget _ | setFull _ | setHalf _ | setSdiv _ =>
    cases hc
    rw [opField_commandWord] at hn
    cases hn
  | getMoving _ =>
    cases hc
    exact ⟨_, _, _, rfl, rfl, fun h9 => absurd (opField_commandWord _ _) h9⟩
  | tick | cmd _ | persistTake | forceDisable | reset _ => cases hc
  | msenc1 | msenc2 | msenc4 | msenc8 | msenc16 | msenc32 => cases hc
  | _ => exact ⟨_, _, _, rfl, rfl, fun _ => rfl⟩

theorem sameRegister_of_moving_out {r : Register} (hr : r ≠ .moving) (s : State) (m : Bool)
    (o : Output) : SameRegister r s { s with moving := m, out := o } := by
  cases r with
  | moving => exact absurd rfl hr
  | _ => rfl

/-- Settles O30: the five codes are those of the operations with the precondition "not moving", and no
other operation tests the flag. -/
theorem setCommandsAloneAreRejected : Obligations.SetCommandsAloneAreRejected := by
  intro w s hm
  constructor
  · intro hop
    exact exec_rejected (.inl rfl) ((needsIdle_opOf_iff _).2 hop) hm
  · intro hop
    have hn : needsIdle (opOf (opField w)) = false :=
      Bool.eq_false_iff.2 (mt (needsIdle_opOf_iff _).1 hop)
    obtain ⟨t, m, o, ht, hu, hout⟩ := exec_command_setMoving s false (.inl rfl) hn
    exact ⟨t, _, ht, hu, fun _ hr => sameRegister_of_moving_out hr t m o, hout⟩

/-! ### The four motion commands (R141 to R144) -/

/-- Settles O23: the effect of `STOP` does not depend on the state. -/
theorem stopFreezesTarget : Obligations.StopFreezesTarget := fun data _ =>
  ⟨decodeCommand_of_encode (i := .stop data) rfl rfl, rfl⟩

/-- `SET_POSITION` is a guarded write of all 16 bits, with a persist request (R142). -/
theorem exec_setPosition (v : Word) (s : State) :
    exec (.setPosition v) s = whenIdle s fun t => { t with pos := v, preq := true } := rfl

/-- `SET_TARGET` is a guarded write of all 16 bits (R143). -/
theorem exec_setTarget (v : Word) (s : State) :
    exec (.setTarget v) s = whenIdle s fun t => { t with tgt := v } := rfl

/-- Settles O24, by the two outcomes of a guarded command. -/
theorem setPositionAndTarget : Obligations.SetPositionAndTarget := by
  intro v s
  rw [exec_setPosition, exec_setTarget]
  exact ⟨decodeCommand_of_encode (i := .setPosition v) rfl rfl,
    decodeCommand_of_encode (i := .setTarget v) rfl rfl,
    fun hidle => ⟨whenIdle_idle _ hidle, whenIdle_idle _ hidle⟩,
    fun hmoving => ⟨whenIdle_moving _ hmoving, whenIdle_moving _ hmoving⟩⟩

/-- Settles O25: the effect of `GO` does not depend on the state. -/
theorem goSetsMovingOnly : Obligations.GoSetsMovingOnly := fun data _ =>
  ⟨decodeCommand_of_encode (i := .go data) rfl rfl, rfl⟩

end Sys2Proof.Machine

/-! Proofs of the statements of 43_config_commands.md: the resolution and the divisor, which are
rejected while moving (R160 to R162), and the hold flag (R163, R164). -/

namespace Sys2Proof.Machine

/-! ### Resolution and divisor (R160 to R162) -/

/-- `SET_FULL` is a guarded write of `FINE`, with a persist request (R160). -/
theorem exec_setFull (data : Word) (s : State) :
    exec (.setFull data) s = whenIdle s fun t => { t with fine := false, preq := true } := rfl

/-- `SET_HALF` is a guarded write of `FINE`, with a persist request (R161). -/
theorem exec_setHalf (data : Word) (s : State) :
    exec (.setHalf data) s = whenIdle s fun t => { t with fine := true, preq := true } := rfl

@[simp] theorem levelOf_false : levelOf false = Config.coarseLevel := rfl

@[simp] theorem levelOf_true : levelOf true = Config.fineLevel := rfl

/-- Settles O26, by the two outcomes of a guarded command; the pins follow `FINE` alone. -/
theorem setResolution : Obligations.SetResolution := by
  intro data s
  rw [exec_setFull, exec_setHalf]
  exact ⟨decodeCommand_of_encode (i := .setFull data) rfl rfl,
    decodeCommand_of_encode (i := .setHalf data) rfl rfl,
    fun hidle => ⟨whenIdle_idle _ hidle, whenIdle_idle _ hidle⟩,
    fun hmoving => ⟨whenIdle_moving _ hmoving, whenIdle_moving _ hmoving⟩,
    fun t hcoarse => by simp [msSelPins, hcoarse],
    fun t hfine => by simp [msSelPins, hfine]⟩

/-- The divisor is the low byte of the payload, whatever the high one is (R162). -/
@[simp] theorem sdivOperand_append (high low : Byte) : sdivOperand (high ++ low) = low :=
  BitVec.extractLsb'_append_eq_right

/-- `SET_SDIV` is a guarded write of `SDIV`, with a persist request (R162). -/
theorem exec_setSdiv (data : Word) (s : State) :
    exec (.setSdiv data) s =
      whenIdle s fun t => { t with sdiv := sdivOperand data, preq := true } := rfl

/-- Settles O27, by the two outcomes of a guarded command and the low byte it stores. -/
theorem setSdiv : Obligations.SetSdiv := by
  intro high low s
  rw [exec_setSdiv, sdivOperand_append]
  exact ⟨decodeCommand_of_encode (i := .setSdiv (high ++ low)) rfl rfl,
    fun hidle => whenIdle_idle _ hidle, fun hmoving => whenIdle_moving _ hmoving⟩

/-! ### The hold flag (R163, R164) -/

/-- Settles O28: the effect of `HOLD_ON` does not depend on the state. -/
theorem holdOnEnablesDriver : Obligations.HoldOnEnablesDriver := fun data _ =>
  ⟨decodeCommand_of_encode (i := .holdOn data) rfl rfl, rfl⟩

/-- Settles O29: `HOLD_OFF` arms the countdown in every state, and disables nothing itself. -/
theorem holdOffArmsCountdown : Obligations.HoldOffArmsCountdown := fun data _ =>
  ⟨decodeCommand_of_encode (i := .holdOff data) rfl rfl, rfl⟩

end Sys2Proof.Machine

/-! Proofs of the statements of 44_query_commands.md: the eight queries, which reply and write no
register (R180 to R188), and the silence of unrecognized commands and messages (R189). -/

namespace Sys2Proof.Machine

/-! ### The silent no-op (R189) -/

/-- The dispatcher's answer to a message that delivers no command (R204, R207). -/
theorem envDispatch_undelivered {content : List Byte} {s : State}
    (hnone : dispatchMessage s.draws content = none) :
    envDispatch content s =
      .next (noteCommand Config.refreshOnUnrecognized { s.begin with draws := s.draws + 1 }) := by
  simp [envDispatch, hnone]

/-- A byte that makes a message exceed the buffer reaches the receiver, and the time of the last
command at most (R203, R207). -/
theorem perform_serialByte_overflowing {b : Byte} {s : State} {r : Rx}
    (hb : rxByte s.draws s.rx b = (r, none)) (ho : overflows s.rx b = true) :
    perform (.serialByte b) s =
      .next
        (noteCommand Config.refreshOnUnrecognized
          { s.begin with rx := r, draws := s.draws + 1 }) := by
  simp [perform, envSerialByte, hb, ho]

/-- Noting the time after an update of the receiver alone is silent: it reaches no register and no
output port. -/
theorem noteCommand_silent (counts : Bool) (r : Rx) (n : Nat) (s : State) :
    (∀ reg : Register,
      SameRegister reg s (noteCommand counts { s.begin with rx := r, draws := n })) ∧
      (noteCommand counts { s.begin with rx := r, draws := n }).out = Output.idle := by
  rw [noteCommand_eq]
  exact ⟨fun reg => by cases reg <;> rfl, rfl⟩

/-- Settles O33: the command starts its event and does nothing more; a message that delivers no
command, and the byte that overflows the buffer, reach the environment's part of the state alone. -/
theorem unrecognizedIsSilent : Obligations.UnrecognizedIsSilent :=
  ⟨fun _ data _ hop => ⟨decodeCommand_unrecognized hop data, rfl, rfl⟩,
    fun _ s hnone => ⟨_, envDispatch_undelivered hnone, noteCommand_silent _ s.rx _ s⟩,
    fun _ s ho =>
      ⟨_, perform_serialByte_overflowing (Prod.ext rfl (rxByte_overflows ho)) ho,
        noteCommand_silent _ _ _ s⟩⟩

/-! ### The replies (R181 to R188) -/

/-- `GET_SDIV` replies the divisor under a zero byte (R76, R187). -/
theorem exec_getSdiv (data : Word) (s : State) :
    exec (.getSdiv data) s = .next (reply .two (0#8 ++ s.sdiv) s.begin) := by
  have hext : s.sdiv.setWidth 16 = 0#8 ++ s.sdiv := BitVec.setWidth_eq_append (by decide)
  rw [← hext]
  rfl

/-- Settles O31: each live query replies its register's value in every state, the divisor
zero-extended. -/
theorem liveQueriesReply : Obligations.LiveQueriesReply := fun data s =>
  ⟨decodeCommand_of_encode (i := .getPosition data) rfl rfl,
    decodeCommand_of_encode (i := .getTarget data) rfl rfl,
    decodeCommand_of_encode (i := .getHalf data) rfl rfl,
    decodeCommand_of_encode (i := .getMoving data) rfl rfl,
    decodeCommand_of_encode (i := .getSdiv data) rfl rfl,
    rfl, rfl, rfl, rfl, exec_getSdiv data s⟩

/-- Settles O32: the three replies do not depend on the state. -/
theorem fixedQueriesReply : Obligations.FixedQueriesReply := fun data _ =>
  ⟨decodeCommand_of_encode (i := .getVersion data) rfl rfl,
    decodeCommand_of_encode (i := .getBacklight data) rfl rfl,
    decodeCommand_of_encode (i := .getTemp data) rfl rfl, rfl, rfl, rfl⟩

/-! ### No side effect (R61, R180) -/

/-- Repeated, an instruction that drove the output ports alone answers the same again: it reads no
port (R13). -/
theorem exec_repeated {i : Instr} {s : State} {o : Output}
    (h : exec i s = .next { s with out := o }) :
    exec i { s with out := o } = .next { s with out := o } := by
  rw [← exec_begin] at h ⊢
  exact h

/-- Two instructions that only give one and the same reply have every property of a query (R180). -/
theorem query_of_reply {i j : Instr} {s : State} (n : Digits) (v : Word)
    (hi : exec i s = .next (reply n v s.begin)) (hj : exec j s = .next (reply n v s.begin)) :
    ∃ t, exec i s = .next t ∧ exec j s = .next t ∧ (∀ r : Register, SameRegister r s t) ∧
      rspValid t = true ∧ exec i t = .next t :=
  ⟨_, hi, hj, fun r => sameRegister_of_out r s _, rfl, exec_repeated hi⟩

/-- Settles O34: each of the eight only gives a reply, whose value `data` does not enter. -/
theorem queriesHaveNoSideEffect : Obligations.QueriesHaveNoSideEffect := by
  intro x y s i j h
  simp only [List.mem_cons, List.not_mem_nil, or_false, Prod.mk.injEq] at h
  rcases h with ⟨rfl, rfl⟩ | ⟨rfl, rfl⟩ | ⟨rfl, rfl⟩ | ⟨rfl, rfl⟩ | ⟨rfl, rfl⟩ | ⟨rfl, rfl⟩ |
    ⟨rfl, rfl⟩ | ⟨rfl, rfl⟩ <;> exact query_of_reply _ _ rfl rfl

end Sys2Proof.Machine

/-! Proofs of the statements of 45_host_services.md: the snapshot and the forced disable (R200,
R201), the record in storage and start-up from it (R208 to R210, U11), and what the dispatcher and
the disconnect check deliver (R204 to R207). -/

namespace Sys2Proof.Machine

/-! ### The two host events (R200, R201) -/

/-- Settles O35: the snapshot packs the four registers in the layout of R87. -/
theorem persistTakeSnapshots : Obligations.PersistTakeSnapshots := fun _ => rfl

/-- Settles O36: the event is `drv_disable()` alone. -/
theorem forceDisableClearsDrven : Obligations.ForceDisableClearsDrven := fun _ => rfl

/-! ### The disconnect check (R207) -/

theorem perform_checkDisconnect_expired {s : State}
    (h : s.lastCommand + Config.disconnectTimeout < s.now) :
    perform .checkDisconnect s = exec .forceDisable s := if_pos h

theorem perform_checkDisconnect_within {s : State}
    (h : s.now ≤ s.lastCommand + Config.disconnectTimeout) :
    perform .checkDisconnect s = .next s.begin := if_neg (Nat.not_lt.2 h)

/-- Settles O57: the two sides of the check's one comparison. -/
theorem disconnectCheckForcesDisable : Obligations.DisconnectCheckForcesDisable := fun _ =>
  ⟨perform_checkDisconnect_expired, perform_checkDisconnect_within⟩

/-! ### The dispatcher (R204, R205, R207) -/

/-- The dispatcher's answer to a message that delivers a command: the command's, with the characters
of its reply and its time. -/
theorem envDispatch_delivered {content : List Byte} {s t : State} {op : Op} {w : BitVec 24}
    (hd : dispatchMessage s.draws content = some (op, w))
    (ht : exec (.cmd w) { s with draws := s.draws + 1 } = .next t) :
    envDispatch content s = .next (noteCommand (countsAsParsed op s) (transmit t)) := by
  simp [envDispatch, hd, ht]

theorem transmit_tx_of_reply {s : State} {r : Reply} (h : s.out.reply = some r) :
    (transmit s).out.tx = renderReply r := by simp [transmit, h]

theorem transmit_tx_of_no_reply {s : State} (h : s.out.reply = none) :
    (transmit s).out.tx = [] := by simp [transmit, h]

theorem sameRegister_dispatched (r : Register) (counts : Bool) (t : State) :
    SameRegister r t (noteCommand counts (transmit t)) := by
  rw [noteCommand_eq]
  cases r <;> rfl

/-- A command that is not a set command met while moving counts as parsed (R207, U5). -/
theorem countsAsParsed_of_accepted {op : Op} {s : State}
    (h : needsIdle op = false ∨ s.moving = false) : countsAsParsed op s = true := by
  rcases h with h | h <;> simp [countsAsParsed, h]

/-- Settles O56: the dispatcher adds the reply's characters and the time to the command's own next
state, and no command reaches the clock. -/
theorem dispatchedCommandRuns : Obligations.DispatchedCommandRuns := by
  intro content s op w hd
  obtain ⟨t, ht⟩ := exec_total (.cmd w) { s with draws := s.draws + 1 }
  have hout : (noteCommand (countsAsParsed op s) (transmit t)).out = (transmit t).out := by
    rw [noteCommand_eq]
  refine ⟨t, _, ht, envDispatch_delivered hd ht, fun r => sameRegister_dispatched r _ t,
    fun r hr => ?_, fun hr => ?_, fun haccepted => ?_⟩
  · rw [hout, transmit_tx_of_reply hr]
  · rw [hout, transmit_tx_of_no_reply hr]
  · obtain ⟨_, _, _, _, hnow, _⟩ := exec_environment ht
    rw [countsAsParsed_of_accepted haccepted]
    exact hnow

/-! ### Bytes written one by one -/

/-- What the writes leave at an offset that is none of theirs. -/
theorem writeCells_read_other {cells : List Host.Cell} {a : Nat} :
    ∀ {m : Memory}, (∀ c ∈ cells, c.1 ≠ a) →
      Memory.read (writeCells cells m) a = Memory.read m a := by
  induction cells with
  | nil => exact fun _ => rfl
  | cons c rest ih =>
    intro m hc
    obtain ⟨hne, hrest⟩ := List.forall_mem_cons.1 hc
    exact (ih hrest).trans (Memory.read_write_other m c.2 hne.symm)

/-- After writes to different offsets of the record every byte written is stored. -/
theorem writeCells_read {cells : List Host.Cell} {c : Host.Cell} :
    ∀ {m : Memory}, (cells.map Prod.fst).Nodup → (∀ x ∈ cells, x.1 < 6) → Memory.wf m = true →
      c ∈ cells → Memory.read (writeCells cells m) c.1 = c.2 := by
  induction cells with
  | nil => exact fun _ _ _ hc => nomatch hc
  | cons x rest ih =>
    intro m hnd hlt hm hc
    obtain ⟨hfresh, hnd⟩ := List.nodup_cons.1 hnd
    obtain ⟨hx, hlt⟩ := List.forall_mem_cons.1 hlt
    rcases List.mem_cons.1 hc with rfl | hc
    · exact (writeCells_read_other fun y hy he => hfresh (List.mem_map.2 ⟨y, hy, he⟩)).trans
        (Memory.read_write_same hm c.1 c.2)
    · exact ih hnd hlt (Memory.write_wf x.2 hx hm) hc

/-! ### The record as six bytes (R60, R87) -/

/-- A word of the persisted subset is its four fields. -/
theorem packPersisted_fields (w : BitVec 26) :
    packPersisted (persistedHold w) (persistedFine w) (persistedSdiv w) (persistedPos w) = w := by
  have hbit : ∀ k, BitVec.ofBool (w.getLsbD k) = w.extractLsb' k 1 := fun k => by
    ext i hi
    obtain rfl : i = 0 := by omega
    simp
  unfold packPersisted persistedHold persistedFine persistedSdiv persistedPos
  rw [hbit, hbit, BitVec.extractLsb'_append_extractLsb'_eq_extractLsb' (by rfl),
    BitVec.extractLsb'_append_extractLsb'_eq_extractLsb' (by rfl),
    BitVec.extractLsb'_append_extractLsb'_eq_extractLsb' (by rfl)]
  simp

/-- Storage holds the six bytes of the record of `w`, the marker first (R60). -/
def HoldsRecord (m : Memory) (w : BitVec 26) : Prop :=
  ∀ c ∈ recordCells w, Memory.read m c.1 = c.2

/-- After `save()` storage holds the record of its snapshot (R209). -/
theorem saveCells_holdsRecord (w : BitVec 26) {m : Memory} (hm : Memory.wf m = true) :
    HoldsRecord (saveCells (recordCells w) m).1 w := fun _ hc =>
  saveCells_read (recordCells_nodup w) (fun _ => recordCells_offset) hm hc

theorem HoldsRecord.marker {m : Memory} {w : BitVec 26} (h : HoldsRecord m w) :
    Memory.read m 0 = Config.marker := h (0, Config.marker) List.mem_cons_self

/-- The fields of a stored record decode to what was encoded (R209). -/
theorem HoldsRecord.recordFields {m : Memory} {w : BitVec 26} (h : HoldsRecord m w) :
    recordFields m = w := by
  simp only [HoldsRecord, recordCells, List.forall_mem_cons] at h
  obtain ⟨_, hpos1, hpos2, hfine, hsdiv, hhold, _⟩ := h
  rw [Machine.recordFields, hpos1, hpos2, hfine, hsdiv, hhold, flagOfByte_flagByte,
    flagOfByte_flagByte, posOfBytes_posByte, packPersisted_fields]

/-! ### `load()` (R208) -/

theorem loadInit_of_marker {m : Memory} (h : Memory.read m 0 = Config.marker) :
    loadInit m = recordFields m := if_pos h

theorem loadInit_of_mismatch {m : Memory} (h : Memory.read m 0 ≠ Config.marker) :
    loadInit m = defaultInit := if_neg h

theorem loadWrites_of_marker {m : Memory} (h : Memory.read m 0 = Config.marker) :
    loadWrites m = [] := if_pos h

theorem loadMemory_of_marker {m : Memory} (h : Memory.read m 0 = Config.marker) :
    loadMemory m = m := by rw [loadMemory, loadWrites_of_marker h, writeCells]

theorem loadMemory_of_mismatch {m : Memory} (h : Memory.read m 0 ≠ Config.marker) :
    loadMemory m = writeCells (recordCells defaultInit) m := by
  rw [loadMemory, loadWrites, if_neg h]

/-- After the repair storage holds the record of the defaults. -/
theorem loadMemory_holdsRecord {m : Memory} (hm : Memory.wf m = true)
    (h : Memory.read m 0 ≠ Config.marker) : HoldsRecord (loadMemory m) defaultInit := by
  intro c hc
  rw [loadMemory_of_mismatch h]
  exact writeCells_read (recordCells_nodup _) (fun _ => recordCells_offset) hm hc

theorem HoldsRecord.loadInit {m : Memory} {w : BitVec 26} (h : HoldsRecord m w) :
    loadInit m = w := (loadInit_of_marker h.marker).trans h.recordFields

/-- Settles O50: what `save()` leaves is a record of its snapshot, whose marker matches and whose
fields decode to it. -/
theorem saveThenLoadRoundTrip : Obligations.SaveThenLoadRoundTrip := fun w _ hm =>
  have hrec := saveCells_holdsRecord w hm
  ⟨hrec.loadInit, loadWrites_of_marker hrec.marker⟩

/-- Settles O52, by the two branches of `load()`: the record's fields as they are, or the defaults
and their record in storage. -/
theorem loadAdoptsOrRepairs : Obligations.LoadAdoptsOrRepairs := by
  refine fun m hm => ⟨fun h => ?_, fun h => ?_⟩
  · rw [loadInit_of_marker h]
    exact ⟨loadMemory_of_marker h, persistedPos_pack .., persistedFine_pack ..,
      persistedSdiv_pack .., persistedHold_pack ..⟩
  · rw [loadInit_of_mismatch h]
    exact ⟨persistedPos_pack .., persistedFine_pack .., persistedSdiv_pack ..,
      persistedHold_pack .., loadMemory_holdsRecord hm h⟩

/-! ### Start-up (R208, R262) -/

/-- Start-up is `RESET` with the word that `load()` hands to it, on the storage that `load()`
leaves; the environment starts afresh. -/
theorem perform_powerUp {s t : State} (h : exec (.reset (loadInit s.nv)) s = .next t) :
    perform .powerUp s =
      .next
        { t with
          nv := loadMemory s.nv
          saving := none
          rx := .idle
          lastCommand := 0
          now := 0
          out := { t.out with nvWrites := loadWrites s.nv } } := by
  simp [perform, envPowerUp, h]

/-- After start-up the persisted registers are the fields of what `load()` adopted. -/
theorem perform_powerUp_fields {s t : State} (h : perform .powerUp s = .next t) :
    t.pos = persistedPos (loadInit s.nv) ∧ t.fine = persistedFine (loadInit s.nv) ∧
      t.sdiv = persistedSdiv (loadInit s.nv) ∧ t.hold = persistedHold (loadInit s.nv) := by
  cases (perform_powerUp rfl).symm.trans h
  exact ⟨rfl, rfl, rfl, rfl⟩

/-- `RESET` with the defaults installs the registers of the reset state, `DIR` apart (R37, R260). -/
theorem sameRegister_reset_defaultInit {s t : State} (h : exec (.reset defaultInit) s = .next t)
    {r : Register} (hr : r ≠ .dir) : SameRegister r State.reset t := by
  cases h
  cases r with
  | pos | tgt => exact persistedPos_pack ..
  | fine => exact persistedFine_pack ..
  | sdiv => exact persistedSdiv_pack ..
  | hold => exact persistedHold_pack ..
  | dir => exact absurd rfl hr
  | _ => rfl

/-- Settles O13: on a mismatch `load()` hands the defaults to `RESET` and stores their record. -/
theorem powerUpOnUninitialisedStorage : Obligations.PowerUpOnUninitialisedStorage := by
  intro s hm hmis
  obtain ⟨t, ht⟩ := exec_total (.reset (loadInit s.nv)) s
  refine ⟨_, perform_powerUp ht, fun r hr => ?_, loadMemory_holdsRecord hm hmis⟩
  rw [loadInit_of_mismatch hmis] at ht
  have hreg := sameRegister_reset_defaultInit ht hr
  cases r <;> exact hreg

/-! ### A serviced request (R200, R209, R210) -/

/-- The main loop's answer to a persist request with no `save()` in progress: the request is cleared
and the `save()` of the present snapshot begins. -/
theorem perform_service_request {s : State} (hreq : s.preq = true) (hsaving : s.saving = none) :
    perform .service s =
      .next
        { s with
          preq := false
          saving := some (snapshot s)
          out := { Output.idle with snap := some (snapshot s) } } := by
  have hguard : (s.preq && s.saving.isNone) = true := by simp [hreq, hsaving]
  exact if_pos hguard

/-- After a `save()` that ran to its end storage holds the record of its snapshot. -/
theorem perform_save_holdsRecord {s t : State} {w : BitVec 26} (h : perform .save s = .next t)
    (hsaving : s.saving = some w) (hm : Memory.wf s.nv = true) : HoldsRecord t.nv w := by
  simp only [perform, envSave, hsaving] at h
  cases h
  exact saveCells_holdsRecord w hm

/-- Settles O58: the `save()` writes the record of the snapshot taken, `load()` adopts it, and the
snapshot's fields are the registers of that moment. -/
theorem servicedRequestSurvivesPowerUp : Obligations.ServicedRequestSurvivesPowerUp := by
  intro s t u v r hreq hsaving hm hservice hnv hsave hsaved hup
  cases (perform_service_request hreq hsaving).symm.trans hservice
  have hrec : HoldsRecord v.nv (snapshot s) :=
    perform_save_holdsRecord hsaved hsave (by rw [hnv]; exact hm)
  obtain ⟨hpos, hfine, hsdiv, hhold⟩ := perform_powerUp_fields hup
  rw [hrec.loadInit] at hpos hfine hsdiv hhold
  exact ⟨rfl, hpos.trans (persistedPos_pack ..), hfine.trans (persistedFine_pack ..),
    hsdiv.trans (persistedSdiv_pack ..), hhold.trans (persistedHold_pack ..)⟩

/-! ### Power lost during a `save()` (U11) -/

/-- Each byte of the record is the new one where it had been written and the old one where not: the
writes go to different offsets, and no other write goes to an offset that was not selected. -/
theorem tornSave_read (written : BitVec 6) {w : BitVec 26} {m : Memory} (hm : Memory.wf m = true)
    {c : Host.Cell} (hc : c ∈ recordCells w) :
    Memory.read (tornSave written (some w) m) c.1 =
      if written.getLsbD c.1 then c.2 else Memory.read m c.1 := by
  by_cases hw : written.getLsbD c.1 = true
  · rw [if_pos hw]
    exact writeCells_read ((recordCells_nodup w).sublist (List.filter_sublist.map _))
      (fun _ hx => recordCells_offset (List.mem_of_mem_filter hx)) hm (List.mem_filter.2 ⟨hc, hw⟩)
  · rw [if_neg hw]
    exact writeCells_read_other fun x hx he => hw (he ▸ (List.mem_filter.1 hx).2)

/-- Settles O59: the storage that start-up meets is the torn one, which is canonical and mixes old
and new bytes. -/
theorem powerLossMixesOldAndNewBytes : Obligations.PowerLossMixesOldAndNewBytes := by
  intro s written hm
  refine ⟨tornSave written s.saving s.nv, rfl, tornSave_wf written _ hm, fun w hs c hc => ?_,
    fun hs => ?_⟩
  · rw [hs]
    exact tornSave_read written hm hc
  · rw [hs, tornSave]

end Sys2Proof.Machine

/-! Proofs of the statements of 70_reset_and_hazards.md: what `RESET` installs (R260). -/

namespace Sys2Proof.Machine

/-- The driver-enable pin of a disabled driver is inactive (R36). -/
theorem enPin_of_drven_false {s : State} (h : s.drven = false) :
    enPin s = !Config.enActiveLevel := by
  simp [enPin, h]

/-- What the ports show after `RESET`: they follow the registers that it installs, and it drives
none of the strobes (R36, R76, R260). -/
theorem exec_reset_pins {init : BitVec 26} {s t : State} (h : exec (.reset init) s = .next t) :
    enPin t = !Config.enActiveLevel ∧ msSelPins t = msenc (levelOf (persistedFine init)) ∧
      persistReqPin t = false ∧ rspValid t = false ∧ stepPulses t = 0 := by
  cases h
  exact ⟨enPin_of_drven_false rfl, rfl, rfl, rfl, rfl⟩

/-- Settles O11: `RESET` installs the fields of its word, with the drawn value in `DIR`; that it is
alone in its clock is the first clause of R72's order; and the pins follow the new registers. -/
theorem resetInstallsRegisters : Obligations.ResetInstallsRegisters := fun _ s =>
  ⟨⟨Config.freeDir s.draws, rfl⟩,
    fun c rest hreset hin => (coincidentStrobesInOrder s c rest hin).1 hreset,
    fun _ => exec_reset_pins⟩

end Sys2Proof.Machine
